-- ==== Sys2Proof/Word.lean ====
section
/-! DEFINITION. The words of the part: bytes of the system link, converter codes, rail and input numbers. -/

namespace Sys2Proof

/-- One byte of the system link (R160). -/
abbrev Byte := BitVec 8

/-- One 12-bit converter result (R88). -/
abbrev Code := BitVec 12

/-- Rail 0 to rail 11 (R21). -/
abbrev Rail := Fin 12

end Sys2Proof
end

