-- ==== Sys2Proof/Syntax.lean ====
section
/-! DEFINITION. The commands of the part: one constructor for each row of spec/opcode_table.json.

A request row carries the frame's TAG and body bytes: the command is the arrival of that request's complete frame
(its CRC byte has matched) at the receive buffers of R162. A pin row carries the pin's new level, a conversion row
the converter's code, an expiry row the rail or line whose timer has run out. -/

namespace Sys2Proof

/-- The three wake lines (R12). -/
inductive WakeLine where
  | key | ir | aux
deriving DecidableEq, Repr

/-- The commands: operations and events of spec/opcode_table.json, in the table's order. -/
inductive Instr where
  | powerOnReset
  | pinReset
  | imageCheckComplete
  /-- `gapUs`: the time in µs between the end of the character before and the start of this one (R160). -/
  | receiveCharacter (gapUs : Nat) (c : Byte)
  | replyLastCharacterSent
  | identify (tag : Byte) (body : List Byte)
  | go (tag : Byte) (body : List Byte)
  | takeNotices (tag : Byte) (body : List Byte)
  | ackOff (tag : Byte) (body : List Byte)
  | readState (tag : Byte) (body : List Byte)
  | readRail (tag : Byte) (body : List Byte)
  | readMeasure (tag : Byte) (body : List Byte)
  | readBudget (tag : Byte) (body : List Byte)
  | readFault (tag : Byte) (body : List Byte)
  | clearFault (tag : Byte) (body : List Byte)
  | readShutdown (tag : Byte) (body : List Byte)
  | setHold (tag : Byte) (body : List Byte)
  | runService (tag : Byte) (body : List Byte)
  | resetBoard (tag : Byte) (body : List Byte)
  | readConfig (tag : Byte) (body : List Byte)
  | editConfig (tag : Byte) (body : List Byte)
  | store (tag : Byte) (body : List Byte)
  | readLink (tag : Byte) (body : List Byte)
  | storeVerified
  | storeNotVerified
  | acOkChange (asserted : Bool)
  | wakeLineChange (line : WakeLine) (asserted : Bool)
  | wakeQualifyExpiry (line : WakeLine)
  | keyHoldExpiry
  | pgPinChange (r : Rail) (high : Bool)
  | pgDeglitchExpiry (r : Rail)
  | lockPinChange (high : Bool)
  | lockDeglitchExpiry
  | periodTimerExpiry
  | busVoltageConversion (code : Code)
  | busCurrentConversion (code : Code)
  | slowConversion (code : Code)
  | rampDeadlineExpiry (r : Rail)
  | drainTimeout (r : Rail)
  | retryWaitExpiry (r : Rail)
  | waitStepExpiry
  | awaitLockDeadlineExpiry
  | handshakeDeadlineExpiry
  | resetPulseExpiry
  | graceExpiry
  | qualifyExpiry
  | rideLimitExpiry
  | settleExpiry
  | restoreIntervalExpiry
  | restExpiry
  | endOfPinReset
deriving DecidableEq, Repr

/-- The body bytes of a request command; none for the other commands. -/
def Instr.body? : Instr → Option (List Byte)
  | .identify _ b | .go _ b | .takeNotices _ b | .ackOff _ b | .readState _ b | .readRail _ b
  | .readMeasure _ b | .readBudget _ b | .readFault _ b | .clearFault _ b | .readShutdown _ b
  | .setHold _ b | .runService _ b | .resetBoard _ b | .readConfig _ b | .editConfig _ b
  | .store _ b | .readLink _ b => some b
  | .powerOnReset | .pinReset | .imageCheckComplete | .receiveCharacter _ _ | .replyLastCharacterSent
  | .storeVerified | .storeNotVerified | .acOkChange _ | .wakeLineChange _ _ | .wakeQualifyExpiry _
  | .keyHoldExpiry | .pgPinChange _ _ | .pgDeglitchExpiry _ | .lockPinChange _ | .lockDeglitchExpiry
  | .periodTimerExpiry | .busVoltageConversion _ | .busCurrentConversion _ | .slowConversion _
  | .rampDeadlineExpiry _ | .drainTimeout _ | .retryWaitExpiry _ | .waitStepExpiry
  | .awaitLockDeadlineExpiry | .handshakeDeadlineExpiry | .resetPulseExpiry | .graceExpiry
  | .qualifyExpiry | .rideLimitExpiry | .settleExpiry | .restoreIntervalExpiry | .restExpiry
  | .endOfPinReset => none

end Sys2Proof
end

