-- ==== Sys2Proof/Config.lean ====
section
/-! DEFINITION. What an implementation fixes and the spec leaves open. -/

namespace Sys2Proof

/-- FREE VALUE (log 6). The spec gives remaining times (R44, R86) and the time in WATCHING (R80, R86) in ms and no
rounding for a time of `us` µs that is no whole number of ms: whether it is rounded up. No proof can see it. -/
opaque Config.roundsUp (us : Nat) : Bool

/-- FREE VALUE (log 16). READ_RAIL always sends a remaining time (R177), and the spec states none for a rail that is not
RAMPING, DRAINING or in RETRY_WAIT (R44): the number sent then, by the model's clock and the rail. -/
opaque Config.remainingOfNone (now rail : Nat) : BitVec 16

/-- FREE VALUE (log 16). READ_STATE sends the running plan "if any, with its status and its current step" (R19), and the
spec states no status for the reply in which no plan runs: the byte sent then, by the model's clock. -/
opaque Config.statusOfNone (now : Nat) : Byte

/-- FREE VALUE (log 16): the current step in that reply, as `Config.statusOfNone`. -/
opaque Config.stepOfNone (now : Nat) : Byte

end Sys2Proof
end

