-- ==== Sys2Proof/Machine/Types.lean ====
section
/-! DEFINITION. The named values of the spec, each list in the order of the rule that defines it (R177 codes a named
value by its position in that list). -/

namespace Sys2Proof.Machine

/-- System state (R1). -/
inductive SysState where
  | starting | unconfigured | standby | boardOn | panelOn | lockout
deriving DecidableEq, Repr

/-- Target (R3, R4): the settled states, in ascending order. -/
inductive Target where
  | standby | boardOn | panelOn
deriving DecidableEq, Repr

/-- A settled state's place in the order STANDBY below BOARD_ON below PANEL_ON (R1). -/
def Target.rank : Target → Nat
  | .standby => 0
  | .boardOn => 1
  | .panelOn => 2

/-- The system state a target names. -/
def Target.toState : Target → SysState
  | .standby => .standby
  | .boardOn => .boardOn
  | .panelOn => .panelOn

/-- Output and pg levels (R22, R71). -/
inductive Level where
  | low | high
deriving DecidableEq, Repr

/-- The level of a pin that is high or low. -/
def Level.ofBool (b : Bool) : Level := if b then .high else .low

/-- Rail states (R22). -/
inductive RailState where
  | off | ramping | on | draining | shed | retryWait | faulted
deriving DecidableEq, Repr

/-- Drain destinations (R22). -/
inductive Dest where
  | off | shed | retryWait | faulted | ramp
deriving DecidableEq, Repr

/-- What proves a rail good (R21). -/
inductive Monitor where
  | pg | window | both
deriving DecidableEq, Repr

/-- Response to a fault on an ON rail (R21). -/
inductive FaultMode where
  | latch | retry | report | ignore
deriving DecidableEq, Repr

/-- The system action of a rail's fault (R21). -/
inductive RailAction where
  | drop | panel | system | lockout
deriving DecidableEq, Repr

/-- retry_limit (R21). -/
inductive RetryLimit where
  | one | three | ten | unlimited
deriving DecidableEq, Repr

/-- The states in which a rail is expected on (R21). -/
inductive Home where
  | none | board | panel
deriving DecidableEq, Repr

/-- The eight plans (R45). -/
inductive PlanId where
  | boardUp | panelUp | panelDown | boardDown | panelSnap | boardSnap | panelCare | user
deriving DecidableEq, Repr

/-- A plan's number (R45). -/
def PlanId.idx : PlanId → Fin 8
  | .boardUp => 0
  | .panelUp => 1
  | .panelDown => 2
  | .boardDown => 3
  | .panelSnap => 4
  | .boardSnap => 5
  | .panelCare => 6
  | .user => 7

/-- The snap plans (R45). -/
def PlanId.isSnap : PlanId → Bool
  | .panelSnap | .boardSnap => true
  | .boardUp | .panelUp | .panelDown | .boardDown | .panelCare | .user => false

/-- The service plans (R45). -/
def PlanId.isService : PlanId → Bool
  | .panelCare | .user => true
  | .boardUp | .panelUp | .panelDown | .boardDown | .panelSnap | .boardSnap => false

/-- The up plans (R5). -/
def PlanId.isUp : PlanId → Bool
  | .boardUp | .panelUp => true
  | .panelDown | .boardDown | .panelSnap | .boardSnap | .panelCare | .user => false

/-- Step kinds (R47). -/
inductive StepKind where
  | railOn | railOff | line | wait | awaitLock | handshake
deriving DecidableEq, Repr

/-- A step's on_miss (R47). -/
inductive OnMiss where
  | fail | goOn
deriving DecidableEq, Repr

/-- Plan status (R48). -/
inductive PlanStatus where
  | idle | pending | running | tail
deriving DecidableEq, Repr

/-- Plan outcome (R48). -/
inductive PlanOutcome where
  | none | done | failed | aborted | cut
deriving DecidableEq, Repr

/-- Step causes, notes, abort, cut and request causes, in the one list of R177. -/
inductive Cause where
  | none | unused | latched | rampTimeout | drainLate | lockTimeout | held | late | targetChanged | stateChanged
  | powerLoss | rideLimit | keyHold | fault | overtemp | planFailed | planned | hostRequest
deriving DecidableEq, Repr

/-- Handshake memory (R48). -/
inductive HsMemory where
  | none | acked | late | skipped | abandoned
deriving DecidableEq, Repr

/-- Control lines in the order of R71. -/
inductive LineId where
  | blEn | blDim | pnlRstN | audMute | sysRstN | faultN | gpoA | gpoB
deriving DecidableEq, Repr

/-- A line's index (R173). -/
def LineId.idx : LineId → Fin 8
  | .blEn => 0
  | .blDim => 1
  | .pnlRstN => 2
  | .audMute => 3
  | .sysRstN => 4
  | .faultN => 5
  | .gpoA => 6
  | .gpoB => 7

/-- Scaling kinds (R91). -/
inductive ScalingKind where
  | busVoltage | busCurrent | temperature | rail
deriving DecidableEq, Repr

/-- Ride states (R113). -/
inductive RideState where
  | normal | qualify | riding | restoring | committed | rest
deriving DecidableEq, Repr

/-- Holds (R132). -/
inductive Hold where
  | ride | limit | heat | host
deriving DecidableEq, Repr

/-- limit_mode (R138). -/
inductive LimitMode where
  | level | count | latch | report | off
deriving DecidableEq, Repr

/-- Limit state (R138). -/
inductive LimitState where
  | watch | limiting | noted | latched
deriving DecidableEq, Repr

/-- Thermal state (R144). -/
inductive ThermalState where
  | cool | warn | hot
deriving DecidableEq, Repr

/-- Fault record state (R148). -/
inductive FaultState where
  | clear | active | sticky | latched
deriving DecidableEq, Repr

/-- Fault causes (R148). -/
inductive FaultCause where
  | none | undervolt | overvolt | pgLost | rampTimeout | drainTimeout | softLimit | hardLimit | overtemp | lockLost
deriving DecidableEq, Repr

/-- Fault actions (R148). -/
inductive FaultAction where
  | none | drop | panel | system | lockout
deriving DecidableEq, Repr

/-- The action a rail's fault_action names (R21, R148). -/
def RailAction.toAction : RailAction → FaultAction
  | .drop => .drop
  | .panel => .panel
  | .system => .system
  | .lockout => .lockout

/-- Causes of a shutdown (R127). -/
inductive ShutCause where
  | none | hostRequest | keyHold | powerLoss | rideLimit | fault | overtemp
deriving DecidableEq, Repr

/-- The handshake outcome a shutdown record and the handshake slot hold (R127, R129). -/
inductive HsOutcome where
  | none | acked | late | skipped
deriving DecidableEq, Repr

/-- The plan whose end completed a shutdown record (R127). -/
inductive LastPlan where
  | none | boardDown | boardSnap
deriving DecidableEq, Repr

/-- The result of the last STORE (11, introduction). -/
inductive StoreResult where
  | none | ok | failed
deriving DecidableEq, Repr

/-- Reply statuses in the order of R177. -/
inductive Status where
  | ok | gated | busy | wrongState | badArgument | unknownKind | locked | notReady | tooLate | stillActive | powerFail
deriving DecidableEq, Repr

/-- The conversions of a period's sequence (R89). -/
inductive Conversion where
  | busVoltage | busCurrent | slow
deriving DecidableEq, Repr

end Sys2Proof.Machine
end

