-- ==== Sys2Proof/Machine/Tables.lean ====
section
/-! DEFINITION. The working tables of R173 as typed records, the blank tables of R176, and the ranges and the rules
between fields of R174. -/

namespace Sys2Proof.Machine

/-- The configuration half of a rail record (R21). -/
structure RailCfg where
  used : Bool
  monitor : Monitor
  lowMV : Nat
  highMV : Nat
  fullscaleMV : Nat
  pgDeglitchMs : Nat
  windowSamples : Nat
  rampMs : Nat
  ladder : Nat
  drainMV : Nat
  drainMs : Nat
  bleed : Bool
  retryMs : Nat
  retryLimit : RetryLimit
  faultMode : FaultMode
  faultAction : RailAction
  home : Home
  /-- 0 for no tier, or 1..4. -/
  tier : Fin 5
deriving DecidableEq, Repr

/-- A step record (R47). `value` holds the level of a LINE step as 0 (LOW) or 1 (HIGH). -/
structure StepRec where
  kind : StepKind
  target : Nat
  value : Nat
  onMiss : OnMiss
  weightMW : Nat
deriving DecidableEq, Repr

/-- The configuration half of a plan (R46). -/
structure PlanCfg where
  stepCount : Fin 17
  tailIndex : Fin 17
  steps : Vector StepRec 16
deriving DecidableEq, Repr

/-- A tier's line members (R132): for each line, member and shed level. -/
structure TierLine where
  member : Bool
  shedLevel : Level
deriving DecidableEq, Repr

/-- A line's configuration (R71). -/
structure LineCfg where
  safe : Level
  darkMember : Bool
  dark : Level
deriving DecidableEq, Repr

/-- A wake line's configuration (R12). -/
structure WakeCfg where
  qualifyMs : Nat
  target : Target
deriving DecidableEq, Repr

/-- Budget parameters (R99). -/
structure BudgetCfg where
  busCap : Nat
  floor : Nat
  pFloor : Nat
  guardMJ : Nat
deriving DecidableEq, Repr

/-- Ride parameters (R112). -/
structure RideCfg where
  dipLevel : Nat
  restoreLevel : Nat
  qualifyMs : Nat
  settleMs : Nat
  restoreIntervalMs : Nat
  rideLimitMs : Nat
  restMs : Nat
  autoReturn : Bool
  /-- T1 to T4. -/
  thresholds : Vector Nat 4
deriving DecidableEq, Repr

/-- Limit parameters (R138). -/
structure LimitCfg where
  softCode : Nat
  hardCode : Nat
  samples : Nat
  tier : Fin 4
  mode : LimitMode
  releaseCode : Nat
  countM : Nat
deriving DecidableEq, Repr

/-- Thermal parameters (R144), in 0.1 °C. -/
structure ThermalCfg where
  warn : Nat
  shutdown : Nat
  hyst : Nat
  tier : Fin 4
deriving DecidableEq, Repr

/-- Lock parameters (R86). -/
structure LockCfg where
  deglitchMs : Nat
  graceMs : Nat
deriving DecidableEq, Repr

/-- System parameters (R173). -/
structure SystemCfg where
  keyHoldMs : Nat
  pulseMs : Nat
  tsUs : Nat
  autoOn : Target
  revision : Nat
deriving DecidableEq, Repr

/-- The working tables (R173). Tier k stands at index k − 1. -/
structure Tables where
  rails : Vector RailCfg 12
  plans : Vector PlanCfg 8
  tiers : Vector (Vector TierLine 8) 4
  lines : Vector LineCfg 8
  wakes : Vector WakeCfg 3
  budget : BudgetCfg
  ride : RideCfg
  limit : LimitCfg
  thermal : ThermalCfg
  lock : LockCfg
  system : SystemCfg
deriving DecidableEq, Repr

/-- A wake line's index (R173). -/
def wakeIdx : WakeLine → Fin 3
  | .key => 0
  | .ir => 1
  | .aux => 2

/-! ### The blank tables (R176, and the blank-table values of R71, R86, R89, R76, R99, R112, R132, R138, R144) -/

def blankRail : RailCfg :=
  { used := false, monitor := .pg, lowMV := 100, highMV := 40000, fullscaleMV := 1650, pgDeglitchMs := 10,
    windowSamples := 3, rampMs := 100, ladder := 1, drainMV := 0, drainMs := 100, bleed := false, retryMs := 1000,
    retryLimit := .one, faultMode := .latch, faultAction := .drop, home := .none, tier := 0 }

/-- A blank-table step (R176). DESIGN CHOICE (log 37): its target byte is 0; R176 gives none. -/
def blankStep : StepRec :=
  { kind := .wait, target := 0, value := 0, onMiss := .goOn, weightMW := 0 }

def blankPlan : PlanCfg :=
  { stepCount := 0, tailIndex := 0, steps := Vector.replicate 16 blankStep }

/-- The blank-table safe level of each line (R71): HIGH for AUD_MUTE and FAULT_N. -/
def blankSafe : LineId → Level
  | .audMute | .faultN => .high
  | .blEn | .blDim | .pnlRstN | .sysRstN | .gpoA | .gpoB => .low

/-- R71. FAULT_N's dark level is "fixed" and never used (R75); the model holds HIGH there (log 15). -/
def blankLine (l : LineId) : LineCfg :=
  { safe := blankSafe l, darkMember := false, dark := blankSafe l }

def blankLines : Vector LineCfg 8 :=
  #v[blankLine .blEn, blankLine .blDim, blankLine .pnlRstN, blankLine .audMute, blankLine .sysRstN,
     blankLine .faultN, blankLine .gpoA, blankLine .gpoB]

def blankTables : Tables :=
  { rails := Vector.replicate 12 blankRail
    plans := Vector.replicate 8 blankPlan
    tiers := Vector.replicate 4 (Vector.replicate 8 { member := false, shedLevel := .low })
    lines := blankLines
    wakes := Vector.replicate 3 { qualifyMs := 50, target := .boardOn }
    budget := { busCap := 100, floor := 1000, pFloor := 1000, guardMJ := 0 }
    ride := { dipLevel := 1800, restoreLevel := 2100, qualifyMs := 10, settleMs := 200, restoreIntervalMs := 50,
              rideLimitMs := 0, restMs := 1000, autoReturn := false, thresholds := #v[0, 0, 0, 0] }
    limit := { softCode := 3000, hardCode := 4095, samples := 3, tier := 0, mode := .off, releaseCode := 2500,
               countM := 100 }
    thermal := { warn := 850, shutdown := 1050, hyst := 50, tier := 0 }
    lock := { deglitchMs := 10, graceMs := 1000 }
    system := { keyHoldMs := 5000, pulseMs := 100, tsUs := 500, autoOn := .standby, revision := 0 } }

/-! ### Ranges and rules between fields (R174) -/

/-- `lo ≤ n ≤ hi`. -/
def inRange (lo hi n : Nat) : Bool := decide (lo ≤ n) && decide (n ≤ hi)

/-- R21, and low_mV < high_mV. -/
def RailCfg.ok (c : RailCfg) : Bool :=
  inRange 100 40000 c.lowMV && inRange 100 40000 c.highMV && decide (c.lowMV < c.highMV)
    && inRange 1000 40950 c.fullscaleMV && inRange 1 100 c.pgDeglitchMs && inRange 1 15 c.windowSamples
    && inRange 1 1000 c.rampMs && inRange 1 4 c.ladder && inRange 0 20000 c.drainMV && inRange 1 2000 c.drainMs
    && inRange 10 10000 c.retryMs

/-- R47: target and value lie in the range of the kind; RAIL_ON and AWAIT_LOCK not in a snap plan; a weight only in
a snap plan. Fields the kind leaves unused take any byte (log 15). -/
def StepRec.ok (p : PlanId) (c : StepRec) : Bool :=
  (match c.kind with
   | .railOn => decide (c.target ≤ 11) && !p.isSnap
   | .railOff => decide (c.target ≤ 11)
   | .line => decide (c.target ≤ 7) && decide (c.target ≠ 5) && decide (c.value ≤ 1)
   | .wait => true
   | .awaitLock => decide (1 ≤ c.value) && !p.isSnap
   | .handshake => decide (1 ≤ c.value))
    && (p.isSnap || decide (c.weightMW = 0))
    && inRange 0 65535 c.value && inRange 0 65535 c.weightMW && inRange 0 255 c.target

/-- R46: a tail index not above the step count. -/
def PlanCfg.headerOk (c : PlanCfg) : Bool := decide (c.tailIndex ≤ c.stepCount)

/-- R46, R47. -/
def PlanCfg.ok (p : PlanId) (c : PlanCfg) : Bool :=
  c.headerOk && c.steps.toList.all (StepRec.ok p)

/-- R132, R75: FAULT_N is no line member. DESIGN CHOICE (log 38): R132 gives FAULT_N no shed level; the shed level byte
of its pair is accepted as LOW or HIGH, kept and read back, and drives nothing. -/
def tierOk (lines : Vector TierLine 8) : Bool := !lines[LineId.idx .faultN].member

/-- R12. -/
def WakeCfg.ok (c : WakeCfg) : Bool := inRange 1 500 c.qualifyMs && decide (c.target ≠ .standby)

/-- R99. -/
def BudgetCfg.ok (c : BudgetCfg) : Bool :=
  inRange 1 6500 c.busCap && inRange 500 3500 c.floor && inRange 100 50000 c.pFloor && inRange 0 5000 c.guardMJ

/-- R112. -/
def RideCfg.ok (c : RideCfg) : Bool :=
  inRange 500 4000 c.dipLevel && decide (c.dipLevel < c.restoreLevel) && inRange 0 4095 c.restoreLevel
    && inRange 0 50 c.qualifyMs && inRange 0 2000 c.settleMs && inRange 1 5000 c.restoreIntervalMs
    && inRange 0 60000 c.rideLimitMs && inRange 0 60000 c.restMs
    && inRange 0 65535 c.thresholds[0] && decide (c.thresholds[1] ≤ c.thresholds[0])
    && decide (c.thresholds[2] ≤ c.thresholds[1]) && decide (c.thresholds[3] ≤ c.thresholds[2])

/-- R138. -/
def LimitCfg.ok (c : LimitCfg) : Bool :=
  inRange 0 4094 c.softCode && decide (c.softCode < c.hardCode) && inRange 0 4095 c.hardCode
    && inRange 1 15 c.samples && decide (c.releaseCode < c.softCode) && inRange 1 255 c.countM

/-- R144. -/
def ThermalCfg.ok (c : ThermalCfg) : Bool :=
  inRange 0 1200 c.warn && decide (c.warn < c.shutdown) && inRange 0 1249 c.shutdown && inRange 10 200 c.hyst

/-- R86. -/
def LockCfg.ok (c : LockCfg) : Bool := inRange 1 100 c.deglitchMs && inRange 10 10000 c.graceMs

/-- R173. -/
def SystemCfg.ok (c : SystemCfg) : Bool :=
  inRange 1000 30000 c.keyHoldMs && inRange 1 1000 c.pulseMs && inRange 100 2000 c.tsUs && decide (c.tsUs % 10 = 0)
    && decide (c.autoOn ≠ .panelOn) && inRange 0 65535 c.revision

/-- The eight plans in order (R45). -/
def allPlans : List PlanId :=
  [.boardUp, .panelUp, .panelDown, .boardDown, .panelSnap, .boardSnap, .panelCare, .user]

/-- The third condition of a good image (R176): every field in range and the rules between fields hold. -/
def Tables.ok (t : Tables) : Bool :=
  t.rails.toList.all RailCfg.ok && allPlans.all (fun p => (t.plans[p.idx]).ok p) && t.tiers.toList.all tierOk
    && t.wakes.toList.all WakeCfg.ok && t.budget.ok && t.ride.ok && t.limit.ok && t.thermal.ok && t.lock.ok
    && t.system.ok

/-- A plan's tables entry. -/
def Tables.plan (t : Tables) (p : PlanId) : PlanCfg := t.plans[p.idx]

/-- A line's tables entry. -/
def Tables.line (t : Tables) (l : LineId) : LineCfg := t.lines[l.idx]

/-- A wake line's tables entry. -/
def Tables.wake (t : Tables) (w : WakeLine) : WakeCfg := t.wakes[wakeIdx w]

/-- Step record n (1..16) of a plan (R46). -/
def PlanCfg.step (c : PlanCfg) (n : Nat) : StepRec := (c.steps[n - 1]?).getD blankStep

/-- The last step of the body (R46): tail index − 1 with a tail, the step count without. -/
def PlanCfg.bodyLast (c : PlanCfg) : Nat :=
  if c.tailIndex = 0 then c.stepCount else c.tailIndex - 1

end Sys2Proof.Machine
end

