-- ==== Sys2Proof/Machine/State.lean ====
section
/-! DEFINITION. The machine's state: every piece of state the spec gives the part, as plain data, and its reset. -/

namespace Sys2Proof.Machine

/-- A timer: stopped, or running to a deadline on the model's clock, in µs (log 2, log 3). -/
abbrev Timer := Option Nat

/-- A counted time: standing at some µs, or running since a moment of the model's clock. -/
inductive Stopwatch where
  | stopped (us : Nat)
  | running (since : Nat)
deriving DecidableEq, Repr

/-- A wake qualifier (R12). -/
inductive WakeQ where
  | idle
  | qualifying (deadline : Nat)
  | held
deriving DecidableEq, Repr

/-- The key-hold timer (R14). -/
inductive KeyHold where
  | idle
  | timing (deadline : Nat)
  | fired
deriving DecidableEq, Repr

/-- The runtime half of a rail record (R22), with its detectors (R33, R34), its one timer and its power-good
qualifier (R24). -/
structure RailRt where
  state : RailState
  dest : Dest
  attempt : Nat
  retryCount : Nat
  lastMV : Nat
  pgLevel : Level
  oow : Nat
  winDetector : Bool
  pgDetector : Bool
  /-- The window half of the monitor condition, met by a conversion of this attempt (R27). -/
  winHalf : Bool
  /-- Cleared while draining towards FAULTED: the home test is due at the drain's end (R42). -/
  clearedInDrain : Bool
  /-- The ramp deadline, the drain timer or the retry wait, by state. -/
  timer : Timer
  /-- The power-good qualification being timed (R24). -/
  pgTimer : Timer
deriving DecidableEq, Repr

/-- The runtime record of a plan (R48); status and current step are read from the run in hand and the pending set. -/
structure PlanRt where
  lastOutcome : PlanOutcome
  outcomeStep : Nat
  outcomeCause : Cause
  excStep : Nat
  excCause : Cause
  merged : Bool
  runCount : Nat
deriving DecidableEq, Repr

/-- What the step in flight waits for (R51 to R57), with its timer's deadline. -/
inductive Wait where
  | nothing
  | railOn (r : Rail)
  | railOff (r : Rail)
  | time (deadline : Nat)
  | lock (deadline : Nat)
  | handshake (deadline : Nat)
deriving DecidableEq, Repr

/-- The plan that is RUNNING or in TAIL (R49). -/
structure Run where
  plan : PlanId
  inTail : Bool
  current : Nat
  /-- The run's cause (R49): the pending entry's request cause, PLANNED for a transition plan. -/
  cause : Cause
  /-- The outcome, step and cause kept for the end of the tail (R59, R66). -/
  tailOutcome : PlanOutcome
  tailStep : Nat
  tailCause : Cause
  /-- Steps of this run that completed or missed (R60). -/
  stepsDone : Nat
  wait : Wait
deriving DecidableEq, Repr

/-- The pending set (R48): each entry with its request cause. -/
structure PendingSet where
  panelSnap : Option Cause
  boardSnap : Option Cause
  panelCare : Option Cause
  user : Option Cause
deriving DecidableEq, Repr

/-- The reset pulse (R77). -/
inductive Pulse where
  | idle
  | armed
  | active (deadline : Nat)
deriving DecidableEq, Repr

/-- The supervision states (R79). -/
inductive Supervision where
  | inactive
  | watching
  | grace (deadline : Nat)
  | expired
deriving DecidableEq, Repr

/-- A channel result record (R92). -/
structure ChanRec where
  code : Nat
  scaled : Int
  clipped : Bool
  minCode : Nat
  maxCode : Nat
  count : Nat
  clips : Nat
deriving DecidableEq, Repr

/-- The Measurement Scanner (R88 to R98). -/
structure Scanner where
  tsUs : Nat
  timer : Timer
  conv : Option Conversion
  vb : Option Nat
  pointer : Fin 15
  records : Vector ChanRec 15
deriving DecidableEq, Repr

/-- The computation record of the Hold-Up Budget (R104). -/
structure BudgetRec where
  vb : Nat
  ib : Nat
  eAvail : Nat
  pMeas : Nat
  pNow : Nat
  eReserve : Nat
  h : Int
  tCommit : Nat
  count : Nat
deriving DecidableEq, Repr

/-- The Hold-Up Budget (R106, R110, R104). -/
structure Budget where
  eReserve : Nat
  partPanel : Nat
  partBoard : Nat
  record : BudgetRec
deriving DecidableEq, Repr

/-- The ride statistics (R126). -/
structure RideStats where
  shortDips : Nat
  rides : Nat
  recoveries : Nat
  commits : Nat
deriving DecidableEq, Repr

/-- The Ride-Through Controller but for the shutdown record (R113 to R126, R129). -/
structure Ride where
  state : RideState
  settling : Bool
  belowDip : Nat
  qualifyTimer : Timer
  limitTimer : Timer
  settleTimer : Timer
  restoreTimer : Timer
  restTimer : Timer
  clock : Stopwatch
  stats : RideStats
  slot : HsOutcome
deriving DecidableEq, Repr

/-- The shutdown record (R127); `tiersHeld` at index k − 1 for tier k. -/
structure ShutdownRec where
  isOpen : Bool
  cause : ShutCause
  source : Nat
  eAvail : Nat
  h : Int
  tiersHeld : Vector Bool 4
  rideMs : Nat
  handshake : HsOutcome
  lastPlan : LastPlan
  stepsDone : Nat
  resetSeenPin : Bool
deriving DecidableEq, Repr

/-- A hold set (R132). -/
structure HoldSet where
  ride : Bool
  limit : Bool
  heat : Bool
  host : Bool
deriving DecidableEq, Repr

/-- The runtime half of a tier record (R132). -/
structure TierRt where
  holds : HoldSet
  shedCount : Nat
deriving DecidableEq, Repr

/-- The runtime fields of the bus current limit (R138); `countMode` is set in a COUNT episode (R140). -/
structure LimitRt where
  state : LimitState
  countMode : Bool
  softCount : Nat
  releaseCount : Nat
  hardCount : Nat
  softPresent : Bool
  hardPresent : Bool
  holdTier : Option (Fin 4)
deriving DecidableEq, Repr

/-- The thermal checks (R144) and the tier carrying the HEAT hold (R146). -/
structure ThermalRt where
  state : ThermalState
  holdTier : Option (Fin 4)
deriving DecidableEq, Repr

/-- A fault record (R148); its state is derived. -/
structure FaultRec where
  latch : Bool
  condition : Bool
  occurrences : Nat
  firstCause : FaultCause
  firstValue : Nat
  firstState : Option SysState
  latestCause : FaultCause
  action : FaultAction
deriving DecidableEq, Repr

/-- A notice's key (R168). -/
inductive NoticeKey where
  | state
  | planDone (p : PlanId)
  | fault (src : Fin 15)
  | power
  | offPending
  | storeDone
deriving DecidableEq, Repr

/-- A notice's content (R168, R177). -/
inductive NoticeBody where
  | state (s : SysState) (t : Target) (running : Option PlanId)
  | planDone (o : PlanOutcome) (step : Nat) (cause : Cause) (merged : Bool)
  | fault (s : FaultState) (latest : FaultCause) (occurrences : Nat)
  | power (s : RideState) (settling : Bool) (holds : Vector HoldSet 4) (tCommit : Nat) (h : Int)
  | offPending (deadlineMs : Nat) (cause : Cause)
  | storeDone (ok : Bool)
deriving DecidableEq, Repr

/-- A notice of the queue (R168). -/
structure Notice where
  key : NoticeKey
  body : NoticeBody
deriving DecidableEq, Repr

/-- A complete request frame (R160): KIND, TAG and the body bytes. -/
structure Frame where
  kind : Byte
  tag : Byte
  body : List Byte
deriving DecidableEq, Repr

/-- The receiver (R160): hunting, or in a frame with the bytes after the start byte so far. -/
inductive Rx where
  | hunting
  | inFrame (got : List Byte)
deriving DecidableEq, Repr

/-- The link condition record (R171). -/
structure LinkCounts where
  crc : Nat
  gap : Nat
  long : Nat
  overrun : Nat
deriving DecidableEq, Repr

/-- The System Link (R160 to R172). -/
structure Link where
  rx : Rx
  service : Option Frame
  waiting : Option Frame
  /-- The reply frame being transmitted; empty while the transmitter is idle (R164). -/
  tx : List Byte
  counts : LinkCounts
deriving DecidableEq, Repr

/-- The non-volatile image (R175): valid mark, contents, stored CRC-16. -/
structure Image where
  valid : Bool
  tables : Tables
  crc : BitVec 16
deriving DecidableEq, Repr

/-- The Configuration Store but for the working tables (R173 to R176). -/
structure Store where
  image : Image
  writing : Bool
  lastResult : StoreResult
  /-- The image check of R176 is in progress. -/
  checking : Bool
  /-- The revision field of the loaded image (R166). -/
  revision : Nat
deriving DecidableEq, Repr

/-- The levels of the pins the part reads. -/
structure Pins where
  acOk : Bool
  wake : Vector Bool 3
  lock : Bool
  pg : Vector Bool 12
  /-- RST_N is asserted: a pin reset is in progress (R15, R89). -/
  inReset : Bool
deriving DecidableEq, Repr

/-- The machine. -/
structure State where
  sys : SysState
  target : Target
  retVal : Option Target
  retArmed : Bool
  wakeQ : Vector WakeQ 3
  keyHold : KeyHold
  rails : Vector RailRt 12
  plans : Vector PlanRt 8
  run : Option Run
  reqs : PendingSet
  hsMemory : HsMemory
  planLevels : Vector Level 8
  pulse : Pulse
  sup : Supervision
  lockLevel : Bool
  lockTimer : Timer
  /-- The time counted in WATCHING (R80, R86). -/
  watch : Stopwatch
  scan : Scanner
  bud : Budget
  ride : Ride
  shutdown : ShutdownRec
  tiers : Vector TierRt 4
  limit : LimitRt
  thermal : ThermalRt
  faults : Vector FaultRec 15
  link : Link
  notices : List Notice
  tables : Tables
  store : Store
  pins : Pins
  /-- The model's own clock, in µs (log 2). -/
  now : Nat
  /-- The commands that wait, first in, first out. -/
  pending : List Instr
deriving DecidableEq, Repr

/-- No command of this part ends in a fault: the manual gives every event an effect, and what it calls a fault is a
record of the Fault Unit (R148). The type is empty, which is safe: no run of the model stops. -/
inductive Fault
deriving DecidableEq, Repr

/-- Why a command has no meaning in the model. -/
inductive Refusal where
  /-- Raised by an arm of `exec` whose command is not modelled; safe (the model stops). No arm is so now. -/
  | notModelled (mnemonic : String)
deriving DecidableEq, Repr

/-! ### Reset values -/

/-- R22. -/
def RailRt.reset : RailRt :=
  { state := .off, dest := .off, attempt := 0, retryCount := 0, lastMV := 0, pgLevel := .low, oow := 0,
    winDetector := false, pgDetector := false, winHalf := false, clearedInDrain := false, timer := none,
    pgTimer := none }

/-- R48. -/
def PlanRt.reset : PlanRt :=
  { lastOutcome := .none, outcomeStep := 0, outcomeCause := .none, excStep := 0, excCause := .none, merged := false,
    runCount := 0 }

/-- R98: latest code 0 with the scaled value of code 0. -/
def ChanRec.reset (scaled : Int) : ChanRec :=
  { code := 0, scaled := scaled, clipped := false, minCode := 4095, maxCode := 0, count := 0, clips := 0 }

/-- R98, with the period timer started and the first sequence begun at `now`, the end of the reset (R89). -/
def Scanner.reset (now : Nat) : Scanner :=
  { tsUs := 500, timer := some (now + 500), conv := some .busVoltage, vb := none, pointer := 2,
    records := (Vector.replicate 15 (ChanRec.reset 0)).set 2 (ChanRec.reset (-400)) }

/-- R111. -/
def Budget.reset : Budget :=
  { eReserve := 0, partPanel := 0, partBoard := 0,
    record := { vb := 0, ib := 0, eAvail := 0, pMeas := 0, pNow := 0, eReserve := 0, h := 0, tCommit := 0,
                count := 0 } }

/-- R131. -/
def Ride.reset : Ride :=
  { state := .normal, settling := false, belowDip := 0, qualifyTimer := none, limitTimer := none,
    settleTimer := none, restoreTimer := none, restTimer := none, clock := .stopped 0,
    stats := { shortDips := 0, rides := 0, recoveries := 0, commits := 0 }, slot := .none }

/-- R127: the shutdown record after a power-on reset. -/
def ShutdownRec.reset : ShutdownRec :=
  { isOpen := false, cause := .none, source := 0, eAvail := 0, h := 0, tiersHeld := #v[false, false, false, false],
    rideMs := 0, handshake := .none, lastPlan := .none, stepsDone := 0, resetSeenPin := false }

/-- R147. -/
def TierRt.reset : TierRt :=
  { holds := { ride := false, limit := false, heat := false, host := false }, shedCount := 0 }

/-- R147. -/
def LimitRt.reset : LimitRt :=
  { state := .watch, countMode := false, softCount := 0, releaseCount := 0, hardCount := 0, softPresent := false,
    hardPresent := false, holdTier := none }

/-- R159. -/
def FaultRec.reset : FaultRec :=
  { latch := false, condition := false, occurrences := 0, firstCause := .none, firstValue := 0, firstState := none,
    latestCause := .none, action := .none }

/-- R172. -/
def Link.reset : Link :=
  { rx := .hunting, service := none, waiting := none, tx := [],
    counts := { crc := 0, gap := 0, long := 0, overrun := 0 } }

/-- R87: the plan levels of the blank table. -/
def planLevelsReset : Vector Level 8 := #v[.low, .low, .low, .high, .low, .high, .low, .low]

/-- The machine after a power-on reset, given what no reset of the part touches: the non-volatile image, the pins'
levels and the model's clock and queue (R15, R20, R22, R70, R87, R98, R111, R131, R147, R159, R172, R176). A LOCK pin
that is high is timed from the reset itself, with the blank-table 10 ms (R78). -/
def State.afterReset (image : Image) (pins : Pins) (now : Nat) (pending : List Instr) : State :=
  { sys := .starting, target := .standby, retVal := none, retArmed := false, wakeQ := Vector.replicate 3 .idle,
    keyHold := .idle, rails := Vector.replicate 12 RailRt.reset, plans := Vector.replicate 8 PlanRt.reset, run := none,
    reqs := { panelSnap := none, boardSnap := none, panelCare := none, user := none }, hsMemory := .none,
    planLevels := planLevelsReset, pulse := .idle, sup := .inactive, lockLevel := false,
    lockTimer := if pins.lock then some (now + 10000) else none, watch := .stopped 0, scan := Scanner.reset now,
    bud := Budget.reset, ride := Ride.reset, shutdown := ShutdownRec.reset, tiers := Vector.replicate 4 TierRt.reset,
    limit := LimitRt.reset, thermal := { state := .cool, holdTier := none },
    faults := Vector.replicate 15 FaultRec.reset, link := Link.reset, notices := [], tables := blankTables,
    store := { image := image, writing := false, lastResult := .none, checking := true, revision := 0 },
    pins := pins, now := now, pending := pending }

/-- DESIGN CHOICE (log 7): at `State.reset` every input pin reads low and RST_N is released. -/
def Pins.reset : Pins :=
  { acOk := false, wake := Vector.replicate 3 false, lock := false, pg := Vector.replicate 12 false, inReset := false }

/-- DESIGN CHOICE (log 8): at `State.reset` the non-volatile image is not marked valid, as on a new board
(section 11.4). -/
def Image.reset : Image := { valid := false, tables := blankTables, crc := 0 }

/-- The machine right after a power-on reset of a new part. -/
def State.reset : State := State.afterReset Image.reset Pins.reset 0 []

end Sys2Proof.Machine
end

