-- ==== Sys2Proof/Machine/Event.lean ====
section
/-! DEFINITION. An event in hand: the machine's state with the few marks that live only inside one event, and how an
event begins and ends. A block's own operation only sets marks; the engine operations of Machine/Plans.lean serve
them, so that no operation calls back into the one that called it. -/

namespace Sys2Proof.Machine

/-- What a block answers to the step in flight (R39, R40, R54, R55, R57): completed, possibly with a note
(`.none` for no note), or missed with a cause. -/
inductive Answer where
  | completed (note : Cause)
  | missed (cause : Cause)
deriving DecidableEq, Repr

/-- The state within an event, with its marks:
`ans` the answer the step in flight has been given (R50);
`act` a fault action still to be applied (R154, R155);
`tgtChanged` a change of the target not yet reported to the engine (R3);
`arb` a trigger of the arbiter has arisen (R61);
`planEnded` a plan has ended and supervision may arm (R81);
`stDirty`, `pwDirty` the STATE, POWER notice was queued or updated in this event, its content is taken at the end
(R2, R125). -/
structure Ev extends State where
  ans : Option Answer
  act : Option (Fin 15 × FaultAction)
  tgtChanged : Bool
  arb : Bool
  planEnded : Bool
  stDirty : Bool
  pwDirty : Bool
deriving DecidableEq, Repr

/-- The beginning of an event. -/
def Ev.start (s : State) : Ev :=
  { toState := s, ans := none, act := none, tgtChanged := false, arb := false, planEnded := false, stDirty := false,
    pwDirty := false }

/-- The plan that is RUNNING or in TAIL (R68). -/
def State.runningPlan (s : State) : Option PlanId := s.run.map Run.plan

/-- The content of a STATE notice (R2). -/
def State.stateBody (s : State) : NoticeBody := .state s.sys s.target s.runningPlan

/-- The hold sets of tiers 1 to 4 (R125). -/
def State.holdSets (s : State) : Vector HoldSet 4 :=
  #v[s.tiers[0].holds, s.tiers[1].holds, s.tiers[2].holds, s.tiers[3].holds]

/-- The content of a POWER notice (R125). -/
def State.powerBody (s : State) : NoticeBody :=
  .power s.ride.state s.ride.settling s.holdSets s.bud.record.tCommit s.bud.record.h

/-- Takes the content of the notice with key `k` afresh, in its place. -/
def retake (k : NoticeKey) (b : NoticeBody) (q : List Notice) : List Notice :=
  q.map fun n => if n.key = k then { n with body := b } else n

/-- The notice queue at the end of an event: the STATE and POWER notices queued or updated in it take their content
once every action of the event has been taken (R2, R125). -/
def Ev.finalNotices (e : Ev) : List Notice :=
  let q := if e.stDirty then retake .state e.stateBody e.notices else e.notices
  if e.pwDirty then retake .power e.powerBody q else q

/-- The end of an event. -/
def Ev.finish (e : Ev) : State := { e.toState with notices := e.finalNotices }

/-- An event: its operation from beginning to end. -/
def runEvent (f : Ev → Ev) (s : State) : Host.Outcome State Fault Refusal := .next (f (Ev.start s)).finish

end Sys2Proof.Machine
end

