-- ==== Sys2Proof/Machine/Ops.lean ====
section
/-! DEFINITION. The named operations every block uses: time, saturating counts, the tables in force, rail, plan, tier
and fault accessors, the notice queue. -/

namespace Sys2Proof.Machine

/-! ### Time -/

/-- The deadline of a timer of `ms` milliseconds started now. -/
def State.after (s : State) (ms : Nat) : Timer := some (s.now + 1000 * ms)

/-- A time of `us` µs in ms; a time that is no whole number of ms is rounded by the free value of log 6. -/
def toMs (us : Nat) : Nat :=
  if us % 1000 = 0 then us / 1000 else us / 1000 + (if Config.roundsUp us then 1 else 0)

/-- The time left until a deadline, in ms. Asked only of an operation whose timer runs; the model answers 0 for a
stopped one. -/
def State.remainingMs (s : State) (t : Timer) : Nat :=
  match t with
  | none => 0
  | some d => toMs (d - s.now)

/-- The time counted on a stopwatch, in µs. -/
def State.countedUs (s : State) (w : Stopwatch) : Nat :=
  match w with
  | .stopped us => us
  | .running since => s.now - since

/-- A stopwatch stopped where it stands. -/
def State.stop (s : State) (w : Stopwatch) : Stopwatch := .stopped (s.countedUs w)

/-- A count that stops at its maximum (section "Units and quantities"). -/
def satInc (max n : Nat) : Nat := if n < max then n + 1 else n

/-! ### The tables in force -/

/-- Every block works from the blank-table values while the state is STARTING or UNCONFIGURED (R17, R22, R71, R89,
R99, R112, R147), and from the working tables in every other state. -/
def State.cfg (s : State) : Tables :=
  match s.sys with
  | .starting | .unconfigured => blankTables
  | .standby | .boardOn | .panelOn | .lockout => s.tables

/-- A rail's configuration in force. -/
def State.railCfg (s : State) (r : Rail) : RailCfg := s.cfg.rails[r]

/-! ### Rails -/

/-- The twelve rails in order. -/
def allRails : List Rail := [0, 1, 2, 3, 4, 5, 6, 7, 8, 9, 10, 11]

/-- Change one rail's runtime record. -/
def Ev.setRail (e : Ev) (r : Rail) (f : RailRt → RailRt) : Ev :=
  { e with rails := e.rails.set r (f e.rails[r]) }

/-! ### Plans -/

/-- The engine is idle (R49). -/
def State.engineIdle (s : State) : Bool := s.run.isNone

/-- `p` is RUNNING or in TAIL. -/
def State.isRunning (s : State) (p : PlanId) : Bool := decide (s.runningPlan = some p)

/-- The pending entry of a plan, with its request cause (R48). -/
def PendingSet.get (q : PendingSet) : PlanId → Option Cause
  | .panelSnap => q.panelSnap
  | .boardSnap => q.boardSnap
  | .panelCare => q.panelCare
  | .user => q.user
  | .boardUp | .panelUp | .panelDown | .boardDown => none

/-- Write the pending entry of a snap or service plan. -/
def PendingSet.put (q : PendingSet) (p : PlanId) (c : Option Cause) : PendingSet :=
  match p with
  | .panelSnap => { q with panelSnap := c }
  | .boardSnap => { q with boardSnap := c }
  | .panelCare => { q with panelCare := c }
  | .user => { q with user := c }
  | .boardUp | .panelUp | .panelDown | .boardDown => q

/-- `p` has an entry in the pending set. -/
def State.isPending (s : State) (p : PlanId) : Bool := (s.reqs.get p).isSome

/-- A plan's status (R48): PENDING exactly while it has an entry in the pending set and is not the run in hand. -/
def State.planStatus (s : State) (p : PlanId) : PlanStatus :=
  match s.run with
  | some run =>
    if run.plan = p then (if run.inTail then .tail else .running)
    else if s.isPending p then .pending else .idle
  | none => if s.isPending p then .pending else .idle

/-- A plan's current step (R48): 0 while the plan is not RUNNING or in TAIL. -/
def State.currentStep (s : State) (p : PlanId) : Nat :=
  match s.run with
  | some run => if run.plan = p then run.current else 0
  | none => 0

/-- Change one plan's runtime record. -/
def Ev.setPlan (e : Ev) (p : PlanId) (f : PlanRt → PlanRt) : Ev :=
  { e with plans := e.plans.set p.idx (f e.plans[p.idx]) }

/-- What the step in flight waits for. -/
def State.waitOf (s : State) : Wait :=
  match s.run with
  | some run => run.wait
  | none => .nothing

/-- Set what the step in flight waits for. -/
def Ev.setWait (e : Ev) (w : Wait) : Ev := { e with run := e.run.map fun run => { run with wait := w } }

/-- The answer given to the step in flight: it stops waiting and the answer is marked (R50). -/
def Ev.answer (e : Ev) (a : Answer) : Ev := { e.setWait .nothing with ans := some a }

/-- The answer, if the step in flight is a RAIL_ON step waiting on the rail (R40). -/
def Ev.answerOn (e : Ev) (r : Rail) (a : Answer) : Ev :=
  if e.waitOf = .railOn r then e.answer a else e

/-- The answer, if the step in flight is a RAIL_OFF step waiting on the rail (R39). -/
def Ev.answerOff (e : Ev) (r : Rail) (a : Answer) : Ev :=
  if e.waitOf = .railOff r then e.answer a else e

/-! ### Tiers -/

/-- The tiers in ascending number. -/
def allTiers : List (Fin 4) := [0, 1, 2, 3]

/-- Some hold is in the set. -/
def HoldSet.any (h : HoldSet) : Bool := h.ride || h.limit || h.heat || h.host

/-- The set holds a hold of the kind. -/
def HoldSet.has (h : HoldSet) : Hold → Bool
  | .ride => h.ride
  | .limit => h.limit
  | .heat => h.heat
  | .host => h.host

/-- Add or take out a hold. -/
def HoldSet.put (h : HoldSet) (k : Hold) (b : Bool) : HoldSet :=
  match k with
  | .ride => { h with ride := b }
  | .limit => { h with limit := b }
  | .heat => { h with heat := b }
  | .host => { h with host := b }

/-- A tier is shed while its hold set is non-empty (R132). -/
def State.tierShed (s : State) (t : Fin 4) : Bool := s.tiers[t].holds.any

/-- The tier a rail's tier field names: 1..4 at index 0..3, none for 0 (R21). -/
def tierOf (t : Fin 5) : Option (Fin 4) :=
  match t with
  | 0 => none
  | 1 => some 0
  | 2 => some 1
  | 3 => some 2
  | 4 => some 3

/-- The rail's tier is currently shed (R26). -/
def State.railShed (s : State) (r : Rail) : Bool :=
  match tierOf (s.railCfg r).tier with
  | some t => s.tierShed t
  | none => false

/-- The rail members of a tier (R132), in ascending number. DESIGN CHOICE (log 30): the requests that shed or unshed a
tier reach its members in this order. -/
def State.members (s : State) (t : Fin 4) : List Rail :=
  allRails.filter fun r => decide (tierOf (s.railCfg r).tier = some t)

/-! ### The notice queue (R168) -/

/-- Queue a notice: one with the same key takes the new content in its place, a new key is appended. -/
def enqueue (q : List Notice) (k : NoticeKey) (b : NoticeBody) : List Notice :=
  if q.any (fun n => decide (n.key = k)) then retake k b q else q ++ [{ key := k, body := b }]

/-- Queue a notice (R168). -/
def Ev.notice (e : Ev) (k : NoticeKey) (b : NoticeBody) : Ev := { e with notices := enqueue e.notices k b }

/-- Withdraw the notice with a key, if it is queued; the notices behind it keep their order (R168). -/
def Ev.withdraw (e : Ev) (k : NoticeKey) : Ev := { e with notices := e.notices.filter fun n => decide (n.key ≠ k) }

/-- Queue or update the STATE notice (R2). -/
def Ev.stateNotice (e : Ev) : Ev := { e.notice .state e.stateBody with stDirty := true }

/-- Queue or update the POWER notice (R125, R136). -/
def Ev.powerNotice (e : Ev) : Ev := { e.notice .power e.powerBody with pwDirty := true }

end Sys2Proof.Machine
end

