-- ==== Sys2Proof/Machine/Budget.lean ====
section
/-! DEFINITION. The Hold-Up Budget's arithmetic (chapter 6): the stages of an evaluation and the reserve. -/

namespace Sys2Proof.Machine

/-- D (R101). -/
def budgetD (vb f : Nat) : Nat := if f < vb then vb * vb - f * f else 0

/-- E_avail, in mJ (R101). -/
def eAvail (c vb f : Nat) : Nat := c * budgetD vb f / 2000000

/-- P_meas, in mW (R102). -/
def pMeas (vb ib : Nat) : Nat := vb * ib / 50

/-- P_now, in mW (R102). -/
def pNow (pm pFloor : Nat) : Nat := if pFloor ≤ pm then pm else pFloor

/-- H, in mJ, signed (R103). -/
def headroom (ea er : Nat) : Int := (ea : Int) - (er : Int)

/-- t_commit, in ms (R103). -/
def tCommit (h : Int) (p : Nat) : Nat := if h ≤ 0 then 0 else min 65535 (h.toNat * 1000 / p)

/-- The computation record an evaluation leaves (R100 to R104). -/
def evaluate (b : BudgetCfg) (eReserve vb ib count : Nat) : BudgetRec :=
  let ea := eAvail b.busCap vb b.floor
  let pm := pMeas vb ib
  let pn := pNow pm b.pFloor
  let h := headroom ea eReserve
  { vb := vb, ib := ib, eAvail := ea, pMeas := pm, pNow := pn, eReserve := eReserve, h := h,
    tCommit := tCommit h pn, count := satInc 65535 count }

/-- One budget evaluation on a pair of codes (R100). -/
def Ev.evaluation (e : Ev) (vb ib : Nat) : Ev :=
  { e with bud.record := evaluate e.cfg.budget e.bud.eReserve vb ib e.bud.record.count }

/-- t_step of a snap step, in ms (R106). -/
def stepMs (t : Tables) (c : StepRec) : Nat :=
  match c.kind with
  | .wait | .handshake => c.value
  | .railOff => ((t.rails[c.target]?).getD blankRail).drainMs
  | .line | .railOn | .awaitLock => 0

/-- The part of S a plan contributes, in µJ: steps 1 to step count (R106). -/
def reservePart (t : Tables) (p : PlanId) : Nat :=
  (((t.plan p).steps.toList.take (t.plan p).stepCount).map fun c => stepMs t c * c.weightMW).sum

/-- E_reserve from the two parts and the guard, in mJ, saturating (R106). -/
def eReserveOf (guardMJ partPanel partBoard : Nat) : Nat := min 65535 (guardMJ + (partPanel + partBoard + 999) / 1000)

/-- E_reserve and its two parts are recomputed from the working tables as they stand (R107, R110). -/
def Ev.recomputeReserve (e : Ev) : Ev :=
  { e with
    bud.eReserve :=
      eReserveOf e.tables.budget.guardMJ (reservePart e.tables .panelSnap) (reservePart e.tables .boardSnap)
    bud.partPanel := reservePart e.tables .panelSnap
    bud.partBoard := reservePart e.tables .boardSnap }

end Sys2Proof.Machine
end

