-- ==== Sys2Proof/Machine/Faults.lean ====
section
/-! DEFINITION. The Fault Unit's records (chapter 9): occurrences, conditions, releases, FAULT notices. -/

namespace Sys2Proof.Machine

/-- The fifteen fault sources (R148). -/
def allSources : List (Fin 15) := [0, 1, 2, 3, 4, 5, 6, 7, 8, 9, 10, 11, 12, 13, 14]

/-- Sources BUS_CURRENT, OVERTEMP and LOCK_LOSS (R148). -/
def srcBusCurrent : Fin 15 := 12
def srcOvertemp : Fin 15 := 13
def srcLockLoss : Fin 15 := 14

/-- The source of a rail's record (R148). -/
def srcRail (r : Rail) : Fin 15 := ⟨r.val, by omega⟩

/-- A record's state, derived from its other fields (R148). The record has had an occurrence since it last became
CLEAR exactly when its first cause is not NONE (R150). -/
def FaultRec.state (f : FaultRec) : FaultState :=
  if f.latch then .latched
  else if f.condition then .active
  else if f.firstCause ≠ .none then .sticky
  else .clear

/-- Change one fault record. -/
def Ev.setFault (e : Ev) (src : Fin 15) (f : FaultRec → FaultRec) : Ev :=
  { e with faults := e.faults.set src (f e.faults[src]) }

/-- Queue or update the FAULT notice of a source (R151). -/
def Ev.faultNotice (e : Ev) (src : Fin 15) : Ev :=
  let f := e.faults[src]
  e.notice (.fault src) (.fault f.state f.latestCause f.occurrences)

/-- What an occurrence carries (R149, R150). -/
structure Occurrence where
  cause : FaultCause
  value : Nat
  /-- A latching occurrence sets the latch. -/
  latching : Bool
  /-- The condition is reported present. -/
  withCondition : Bool
  action : FaultAction
deriving DecidableEq, Repr

/-- A record after an occurrence in system state `sys` (R149, R150). -/
def FaultRec.occur (f : FaultRec) (sys : SysState) (o : Occurrence) : FaultRec :=
  let wasClear := decide (f.state = .clear)
  { latch := f.latch || o.latching
    condition := f.condition || o.withCondition
    occurrences := satInc 255 f.occurrences
    firstCause := if wasClear then o.cause else f.firstCause
    firstValue := if wasClear then o.value else f.firstValue
    firstState := if wasClear then some sys else f.firstState
    latestCause := o.cause
    action := if o.action = .none then f.action else o.action }

/-- An occurrence is reported: the record, then the FAULT notice (R150, R151). -/
def Ev.occurrence (e : Ev) (src : Fin 15) (o : Occurrence) : Ev :=
  (e.setFault src fun f => f.occur e.sys o).faultNotice src

/-- An occurrence that carries an action: the action is marked, to be applied after the record and the notice (R154). -/
def Ev.occurrenceAct (e : Ev) (src : Fin 15) (o : Occurrence) : Ev :=
  { e.occurrence src o with act := some (src, o.action) }

/-- The condition is reported ended (R149): the notice follows a change of the record's state (R151). -/
def Ev.conditionEnded (e : Ev) (src : Fin 15) : Ev :=
  if e.faults[src].condition then
    let e' := e.setFault src fun f => { f with condition := false }
    if e'.faults[src].state = e.faults[src].state then e' else e'.faultNotice src
  else e

/-- A record that returns to CLEAR keeps its occurrence count and latest cause; the first-cause fields and the action
read NONE, 0, NONE, NONE again (R150). -/
def FaultRec.cleared (f : FaultRec) : FaultRec :=
  { f with latch := false, condition := false, firstCause := .none, firstValue := 0, firstState := none,
           action := .none }

/-- A release (R153): the latch is cleared; the record goes to CLEAR if its condition is absent, else to ACTIVE. -/
def FaultRec.released (f : FaultRec) : FaultRec :=
  if f.condition then { f with latch := false } else f.cleared

/-- A lockout latch: LATCHED with action LOCKOUT (R157). -/
def FaultRec.isLockout (f : FaultRec) : Bool := f.latch && decide (f.action = .lockout)

/-- At least one lockout latch remains (R7, R157). -/
def State.anyLockout (s : State) : Bool := s.faults.toList.any FaultRec.isLockout

end Sys2Proof.Machine
end

