-- ==== Sys2Proof/Machine/Flags.lean ====
section
/-! DEFINITION. Everything the part derives from its state: outputs (enables, bleeds, control lines, ATTN_N), the
mains gate and the heat gate, the SUMMARY byte. -/

namespace Sys2Proof.Machine

/-- A rail's enable output: asserted exactly while the rail is RAMPING or ON (R23). -/
def State.enableOut (s : State) (r : Rail) : Bool :=
  match s.rails[r].state with
  | .ramping | .on => true
  | .off | .draining | .shed | .retryWait | .faulted => false

/-- A rail's bleed output: asserted only while the rail is DRAINING and its bleed field is yes (R23). -/
def State.bleedOut (s : State) (r : Rail) : Bool :=
  decide (s.rails[r].state = .draining) && (s.railCfg r).bleed

/-- The dark hold is active in GRACE and EXPIRED (R79). -/
def State.darkHold (s : State) : Bool :=
  match s.sup with
  | .grace _ | .expired => true
  | .inactive | .watching => false

/-- The source that decides a line's driven level (R75). -/
inductive LineSource where
  | pulse
  | dark
  | shed (tier : Fin 4)
  | plan
deriving DecidableEq, Repr

/-- The reset pulse force is in place (R77). -/
def State.pulseActive (s : State) : Bool :=
  match s.pulse with
  | .active _ => true
  | .idle | .armed => false

/-- The lowest-numbered shed tier that contains the line (R72). -/
def State.sheddingTier (s : State) (l : LineId) : Option (Fin 4) :=
  allTiers.find? fun t => s.tierShed t && (s.cfg.tiers[t][l.idx]).member

/-- The source that decides a line's level: the first of R72's list that applies. FAULT_N is excluded from the dark
and the shed force (R72, R75). -/
def State.lineSource (s : State) (l : LineId) : LineSource :=
  if l = .sysRstN ∧ s.pulseActive then .pulse
  else if l = .faultN then .plan
  else if s.darkHold ∧ (s.cfg.line l).darkMember then .dark
  else
    match s.sheddingTier l with
    | some t => .shed t
    | none => .plan

/-- The level driven on a control line (R72). -/
def State.driven (s : State) (l : LineId) : Level :=
  match s.lineSource l with
  | .pulse => .low
  | .dark => (s.cfg.line l).dark
  | .shed t => (s.cfg.tiers[t][l.idx]).shedLevel
  | .plan => s.planLevels[l.idx]

/-- The heat gate: open in COOL and WARN, closed in HOT (R144). -/
def State.heatOpen (s : State) : Bool :=
  match s.thermal.state with
  | .cool | .warn => true
  | .hot => false

/-- The mains gate (R6, R20). -/
def State.gateOpen (s : State) : Bool :=
  s.pins.acOk && decide (s.ride.state = .normal) && s.heatOpen && decide (s.sys ≠ .starting)

/-- A HANDSHAKE step is waiting (R56). -/
def State.handshakeWaits (s : State) : Bool :=
  match s.waitOf with
  | .handshake _ => true
  | .nothing | .railOn _ | .railOff _ | .time _ | .lock _ => false

/-- ATTN_N is asserted (R170). -/
def State.attn (s : State) : Bool := !s.notices.isEmpty || s.handshakeWaits

/-- Ride-through is armed (R114). -/
def State.rideArmed (s : State) : Bool :=
  decide (s.sys = .boardOn) || decide (s.sys = .panelOn) || !s.engineIdle

/-- The SUMMARY byte (R165, R177), as a number. -/
def summaryNum (notices : Nat) (handshake ride lockout : Bool) : Nat :=
  notices % 32 + (if handshake then 32 else 0) + (if ride then 64 else 0) + (if lockout then 128 else 0)

/-- The SUMMARY byte of a reply (R165). -/
def State.summary (s : State) : Byte :=
  BitVec.ofNat 8 (summaryNum s.notices.length s.handshakeWaits (decide (s.ride.state ≠ .normal))
    (decide (s.sys = .lockout)))

/-- A budget evaluation's condition for the start of a dip: AC_OK deasserted, or the below-dip count is 2 (R115). -/
def State.dipSeen (s : State) : Bool := !s.pins.acOk || decide (s.ride.belowDip = 2)

/-- The transition plan R5 names. -/
def State.duePlan (s : State) : Option PlanId :=
  match s.sys, s.target with
  | .standby, .boardOn | .standby, .panelOn => some .boardUp
  | .boardOn, .panelOn => some .panelUp
  | .boardOn, .standby => some .boardDown
  | .panelOn, .boardOn | .panelOn, .standby => some .panelDown
  | .standby, .standby | .boardOn, .boardOn | .panelOn, .panelOn
  | .starting, _ | .unconfigured, _ | .lockout, _ => none

end Sys2Proof.Machine
end

