-- ==== Sys2Proof/Machine/Lines.lean ====
section
/-! DEFINITION. The Line Driver and the Link Supervisor (chapter 4): plan levels, the reset pulse, the LOCK qualifier
and supervision. The driven levels are derived (Machine/Flags.lean), so a line is resolved at every event. -/

namespace Sys2Proof.Machine

/-- The eight lines in order (R71). -/
def allLines : List LineId := [.blEn, .blDim, .pnlRstN, .audMute, .sysRstN, .faultN, .gpoA, .gpoB]

/-- The plan level of a line is written (R53, R73, R74). -/
def Ev.setPlanLevel (e : Ev) (l : LineId) (v : Level) : Ev := { e with planLevels := e.planLevels.set l.idx v }

/-- Every plan level but FAULT_N's, whose safe level is fixed HIGH, is set to the safe level of the working tables
(R73). -/
def Ev.loadPlanLevels (e : Ev) : Ev :=
  { e with
    planLevels :=
      #v[(e.tables.line .blEn).safe, (e.tables.line .blDim).safe, (e.tables.line .pnlRstN).safe,
         (e.tables.line .audMute).safe, (e.tables.line .sysRstN).safe, .high, (e.tables.line .gpoA).safe,
         (e.tables.line .gpoB).safe] }

/-! ### The reset pulse -/

/-- The last byte of a reply has been sent: an ARMED pulse becomes ACTIVE at the pulse width then standing (R76, R77). -/
def Ev.pulseReplySent (e : Ev) : Ev :=
  match e.pulse with
  | .armed => { e with pulse := .active (e.now + 1000 * e.cfg.system.pulseMs) }
  | .idle | .active _ => e

/-! ### Supervision of the panel link -/

/-- The time spent in WATCHING, in ms, saturating at 65,535 (R80, R86). -/
def State.watchMs (s : State) : Nat := min 65535 (toMs (s.countedUs s.watch))

/-- GRACE is entered: the dark hold begins, the grace timer starts, an occurrence with the value is reported (R80,
R82). -/
def Ev.enterGrace (e : Ev) (value : Nat) : Ev :=
  { e with sup := .grace (e.now + 1000 * e.cfg.lock.graceMs), watch := e.stop e.watch }.occurrence srcLockLoss
    { cause := .lockLost, value := value, latching := false, withCondition := true, action := .none }

/-- WATCHING is entered: the time counted starts again from zero (R83). -/
def Ev.enterWatching (e : Ev) : Ev := { e with sup := .watching, watch := .running e.now }

/-- Supervision arms after the end of a plan, when the engine is idle and the state is PANEL_ON (R81). -/
def Ev.armSupervision (e : Ev) : Ev :=
  if e.sup = .inactive ∧ e.sys = .panelOn ∧ e.run.isNone then
    if e.lockLevel then e.enterWatching else e.enterGrace 0
  else e

/-- The start of any plan ends supervision and any dark hold (R85). -/
def Ev.endSupervision (e : Ev) : Ev :=
  match e.sup with
  | .inactive => e
  | .watching => { e with sup := .inactive, watch := e.stop e.watch }
  | .grace _ | .expired => { e with sup := .inactive }.conditionEnded srcLockLoss

/-- Supervision hears of a change of the qualified LOCK level (R82, R83). -/
def Ev.superviseLock (e : Ev) : Ev :=
  match e.sup, e.lockLevel with
  | .watching, false => e.enterGrace e.watchMs
  | .grace _, true => (e.conditionEnded srcLockLoss).enterWatching
  | .watching, true | .grace _, false | .inactive, _ | .expired, _ => e

/-- The LOCK qualifier looks at its pin (R78). -/
def Ev.lockLook (e : Ev) : Ev :=
  if e.pins.lock = e.lockLevel then { e with lockTimer := none }
  else { e with lockTimer := e.after e.cfg.lock.deglitchMs }

end Sys2Proof.Machine
end

