-- ==== Sys2Proof/Machine/Rails.lean ====
section
/-! DEFINITION. The Rail Controller (chapter 2): ramps and the ladder, drains, detectors, responses to faults, and the
requests of the Plan Engine, the Shed Unit and the Fault Unit. An answer to a waiting step and a fault action are
marked on the event (Machine/Event.lean); none of these operations calls the engine. -/

namespace Sys2Proof.Machine

/-! ### Ramps -/

/-- The deadline of attempt `k`: ramp_ms × 2^(k−1) (section 2.4). -/
def RailCfg.attemptMs (c : RailCfg) (k : Nat) : Nat := c.rampMs * 2 ^ (k - 1)

/-- The monitor condition of a RAMPING rail (R27). -/
def monitorMet (m : Monitor) (x : RailRt) : Bool :=
  match m with
  | .pg => decide (x.pgLevel = .high)
  | .window => x.winHalf
  | .both => decide (x.pgLevel = .high) && x.winHalf

/-- A rail goes ON (R27): the deadline stops, both detectors start absent (R33), a waiting RAIL_ON step completes. -/
def Ev.railGoOn (e : Ev) (r : Rail) : Ev :=
  (e.setRail r fun x => { x with state := .on, timer := none, winDetector := false, pgDetector := false }).answerOn r
    (.completed .none)

/-- The monitor condition of a RAMPING rail is tested (R27). -/
def Ev.tryOn (e : Ev) (r : Rail) : Ev :=
  if e.rails[r].state = .ramping ∧ monitorMet (e.railCfg r).monitor e.rails[r] then e.railGoOn r else e

/-- A rail takes SHED: its enable stays deasserted and a waiting RAIL_ON step completes with HELD (R26, R40). -/
def Ev.railGoShed (e : Ev) (r : Rail) : Ev :=
  (e.setRail r fun x => { x with state := .shed, timer := none, clearedInDrain := false }).answerOn r
    (.completed .held)

/-- Attempt `k` begins (R26, R28, log 19): the tier is looked at first; otherwise the rail is RAMPING with the attempt's
deadline, the out-of-window count 0 and the window half unmet, and the monitor condition is tested at once. -/
def Ev.beginAttempt (e : Ev) (r : Rail) (k : Nat) : Ev :=
  if e.railShed r then e.railGoShed r
  else
    (e.setRail r fun x =>
      { x with state := .ramping, attempt := k, timer := e.after ((e.railCfg r).attemptMs k), oow := 0,
               winHalf := false, clearedInDrain := false }).tryOn r

/-- A ramp starts, with the full ladder from attempt 1 (R26). -/
def Ev.rampStart (e : Ev) (r : Rail) : Ev := e.beginAttempt r 1

/-! ### The home test (R42) -/

/-- The system states a home value covers (R21). -/
def Home.covers : Home → SysState → Bool
  | .board, .boardOn | .board, .panelOn | .panel, .panelOn => true
  | .board, .starting | .board, .unconfigured | .board, .standby | .board, .lockout
  | .panel, .starting | .panel, .unconfigured | .panel, .standby | .panel, .boardOn | .panel, .lockout
  | .none, _ => false

/-- The home test: a ramp starts if the rail's home covers the system state and no plan is RUNNING or in TAIL;
otherwise the rail goes OFF (R42). -/
def Ev.homeTest (e : Ev) (r : Rail) : Ev :=
  if (e.railCfg r).home.covers e.sys && e.engineIdle then e.rampStart r
  else e.setRail r fun x => { x with state := .off, timer := none }

/-! ### Drains -/

/-- The end of a drain, in time or late (R31, R32): the timer stops, the bleed is released with the state, and the
rail takes its destination. -/
def Ev.drainEnd (e : Ev) (r : Rail) (late : Bool) : Ev :=
  let x := e.rails[r]
  let note : Cause := if late then .drainLate else .none
  match x.dest with
  | .off =>
    let e1 := e.setRail r fun x => { x with state := .off, timer := none, clearedInDrain := false }
    if e.waitOf = .railOn r then e1.rampStart r
    else (if x.clearedInDrain then e1.homeTest r else e1).answerOff r (.completed note)
  | .shed =>
    if e.railShed r then e.railGoShed r else e.rampStart r
  | .retryWait =>
    e.setRail r fun x => { x with state := .retryWait, timer := e.after (e.railCfg r).retryMs }
  | .faulted =>
    let e1 := e.setRail r fun x => { x with state := .faulted, timer := none, clearedInDrain := false }
    (e1.answerOn r (.missed .latched)).answerOff r (.completed note)
  | .ramp => e.beginAttempt r (x.attempt + 1)

/-- Both detectors are set absent as the rail leaves ON; a present condition is reported ended (R33, R37). -/
def Ev.dropDetectors (e : Ev) (r : Rail) : Ev :=
  if e.rails[r].winDetector || e.rails[r].pgDetector then
    (e.setRail r fun x => { x with winDetector := false, pgDetector := false }).conditionEnded (srcRail r)
  else e

/-- A drain begins with a destination (R30). A rail with monitor PG whose pg level is already LOW ends its drain at
its start event. -/
def Ev.drainStart (e : Ev) (r : Rail) (d : Dest) : Ev :=
  let e1 := (e.dropDetectors r).setRail r fun x =>
    { x with state := .draining, dest := d, timer := e.after (e.railCfg r).drainMs, winHalf := false,
             clearedInDrain := false }
  if (e.railCfg r).monitor = .pg ∧ e.rails[r].pgLevel = .low then e1.drainEnd r false else e1

/-! ### Faults on an ON rail -/

/-- The number of retries a retry_limit allows; none for UNLIMITED (R21). -/
def RetryLimit.max : RetryLimit → Option Nat
  | .one => some 1
  | .three => some 3
  | .ten => some 10
  | .unlimited => none

/-- A RETRY-mode rail may still retry: the limit is UNLIMITED or the retry count is below it (R36). -/
def RetryLimit.allows (l : RetryLimit) (count : Nat) : Bool :=
  match l.max with
  | none => true
  | some m => decide (count < m)

/-- The response LATCH (R35): drain to FAULTED, a latching occurrence, the rail's fault_action. -/
def Ev.respondLatch (e : Ev) (r : Rail) (cause : FaultCause) (value : Nat) : Ev :=
  (e.drainStart r .faulted).occurrenceAct (srcRail r)
    { cause := cause, value := value, latching := true, withCondition := false,
      action := (e.railCfg r).faultAction.toAction }

/-- The response RETRY (R36): drain to RETRY_WAIT, a momentary occurrence. -/
def Ev.respondRetry (e : Ev) (r : Rail) (cause : FaultCause) (value : Nat) : Ev :=
  (e.drainStart r .retryWait).occurrence (srcRail r)
    { cause := cause, value := value, latching := false, withCondition := false, action := .none }

/-- A fault detected on an ON rail (R35 to R38). -/
def Ev.railFault (e : Ev) (r : Rail) (cause : FaultCause) (value : Nat) : Ev :=
  match (e.railCfg r).faultMode with
  | .latch => e.respondLatch r cause value
  | .retry =>
    if (e.railCfg r).retryLimit.allows e.rails[r].retryCount then e.respondRetry r cause value
    else e.respondLatch r cause value
  | .report =>
    e.occurrence (srcRail r)
      { cause := cause, value := value, latching := false, withCondition := true, action := .none }
  | .ignore => e

/-- A reading lies in the window (R33). -/
def RailCfg.inWindow (c : RailCfg) (mv : Nat) : Bool := decide (c.lowMV ≤ mv) && decide (mv ≤ c.highMV)

/-- A detector has become absent: if it was the last one present, the condition is reported ended (R37). -/
def Ev.detectorGone (e : Ev) (r : Rail) : Ev :=
  if e.rails[r].winDetector || e.rails[r].pgDetector then e else e.conditionEnded (srcRail r)

/-- A conversion of an ON rail is judged against the window (R33). -/
def Ev.judgeWindow (e : Ev) (r : Rail) (mv : Nat) : Ev :=
  let c := e.railCfg r
  let x := e.rails[r]
  if c.inWindow mv then
    let e1 := e.setRail r fun x => { x with oow := 0, winDetector := false }
    if x.winDetector then e1.detectorGone r else e1
  else if x.winDetector then e
  else if x.oow + 1 < c.windowSamples then e.setRail r fun x => { x with oow := x.oow + 1 }
  else
    (e.setRail r fun x => { x with oow := c.windowSamples, winDetector := true }).railFault r
      (if mv < c.lowMV then .undervolt else .overvolt) mv

/-! ### What the rail's input and pin tell -/

/-- The rail's conversions and pg level are judged against conditions that read the window (R25). -/
def Monitor.readsWindow : Monitor → Bool
  | .window | .both => true
  | .pg => false

/-- The rail's pg level is judged by the PG_LOST detector (R34). -/
def Monitor.readsPg : Monitor → Bool
  | .pg | .both => true
  | .window => false

/-- A conversion of a RAMPING rail at or above low_mV meets the window half (R27). -/
def Ev.rampConversion (e : Ev) (r : Rail) (mv : Nat) : Ev :=
  if (e.railCfg r).lowMV ≤ mv then (e.setRail r fun x => { x with winHalf := true }).tryOn r else e

/-- A conversion of a DRAINING rail at or below drain_mV ends the drain (R31). -/
def Ev.drainConversion (e : Ev) (r : Rail) (mv : Nat) : Ev :=
  if mv ≤ (e.railCfg r).drainMV then e.drainEnd r false else e

/-- pg level takes a qualified level and acts on the ramp, the PG_LOST detector or the drain (R24, R27, R31, R34). -/
def Ev.pgQualified (e : Ev) (r : Rail) (l : Level) : Ev :=
  let e1 := e.setRail r fun x => { x with pgLevel := l, pgTimer := none }
  let m := (e.railCfg r).monitor
  match e.rails[r].state with
  | .ramping => e1.tryOn r
  | .on =>
    if m.readsPg then
      match l with
      | .low =>
        if e.rails[r].pgDetector then e1
        else (e1.setRail r fun x => { x with pgDetector := true }).railFault r .pgLost e.rails[r].lastMV
      | .high =>
        if e.rails[r].pgDetector then (e1.setRail r fun x => { x with pgDetector := false }).detectorGone r else e1
    else e1
  | .draining => if m = .pg ∧ l = .low then e1.drainEnd r false else e1
  | .off | .shed | .retryWait | .faulted => e1

/-- The power-good qualifier of a used rail looks at its pin: a level opposite to pg level is timed from now, a level
equal to it drops the timing (R24). -/
def Ev.pgLook (e : Ev) (r : Rail) : Ev :=
  if (e.railCfg r).used then
    if Level.ofBool e.pins.pg[r] = e.rails[r].pgLevel then e.setRail r fun x => { x with pgTimer := none }
    else e.setRail r fun x => { x with pgTimer := e.after (e.railCfg r).pgDeglitchMs }
  else e

/-- The power-good qualifier stops: pg level is LOW (R24). -/
def Ev.pgStop (e : Ev) (r : Rail) : Ev := e.setRail r fun x => { x with pgTimer := none, pgLevel := .low }

/-! ### Timers -/

/-- The deadline of a ramp attempt expires (R28, R29). The answer to a waiting step is given at the expiry itself, so
that the end of the drain finds no step waiting. -/
def Ev.rampExpiry (e : Ev) (r : Rail) : Ev :=
  let c := e.railCfg r
  if e.rails[r].attempt < c.ladder then e.drainStart r .ramp
  else
    let action : FaultAction := if e.waitOf = .railOn r then .drop else c.faultAction.toAction
    ((e.answerOn r (.missed .rampTimeout)).drainStart r .faulted).occurrenceAct (srcRail r)
      { cause := .rampTimeout, value := e.rails[r].lastMV, latching := true, withCondition := false,
        action := action }

/-- The drain timer expires (R32). -/
def Ev.drainExpiry (e : Ev) (r : Rail) : Ev :=
  (e.occurrence (srcRail r)
    { cause := .drainTimeout, value := e.rails[r].lastMV, latching := false, withCondition := false,
      action := .none }).drainEnd r true

/-- retry_ms expires (R36): the retry count rises and a ramp starts. -/
def Ev.retryExpiry (e : Ev) (r : Rail) : Ev :=
  (e.setRail r fun x => { x with retryCount := satInc 255 x.retryCount, timer := none }).rampStart r

/-! ### Requests -/

/-- An off request (R39). The step is already marked as waiting on the rail. -/
def Ev.offRequest (e : Ev) (r : Rail) : Ev :=
  let e1 := e.setRail r fun x => { x with retryCount := 0 }
  match e.rails[r].state with
  | .off | .faulted => e1.answerOff r (.completed .none)
  | .on | .ramping => e1.drainStart r .off
  | .draining =>
    match e.rails[r].dest with
    | .off | .faulted => e1
    | .shed | .retryWait | .ramp => e1.setRail r fun x => { x with dest := .off }
  | .shed | .retryWait =>
    (e1.setRail r fun x => { x with state := .off, timer := none }).answerOff r (.completed .none)

/-- An enable request (R40). The step is already marked as waiting on the rail. -/
def Ev.enableRequest (e : Ev) (r : Rail) : Ev :=
  if (e.railCfg r).used then
    match e.rails[r].state with
    | .on => e.answerOn r (.completed .none)
    | .off => e.rampStart r
    | .shed => e.answerOn r (.completed .held)
    | .faulted => e.answerOn r (.missed .latched)
    | .ramping | .draining | .retryWait => e
  else e.answerOn r (.missed .unused)

/-- A shed request (R41). -/
def Ev.shedRequest (e : Ev) (r : Rail) : Ev :=
  match e.rails[r].state with
  | .on | .ramping => e.drainStart r .shed
  | .draining =>
    if e.rails[r].dest = .ramp then e.setRail r fun x => { x with dest := .shed } else e
  | .off | .shed | .retryWait | .faulted => e

/-- An unshed request (R41). -/
def Ev.unshedRequest (e : Ev) (r : Rail) : Ev :=
  if e.rails[r].state = .shed then e.rampStart r else e

/-- A clear that the Fault Unit has taken (R42). -/
def Ev.railClear (e : Ev) (r : Rail) : Ev :=
  let e1 := e.setRail r fun x => { x with retryCount := 0 }
  match e.rails[r].state with
  | .faulted => e1.homeTest r
  | .draining =>
    if e.rails[r].dest = .faulted then e1.setRail r fun x => { x with dest := .off, clearedInDrain := true } else e1
  | .off | .ramping | .on | .shed | .retryWait => e1

end Sys2Proof.Machine
end

