-- ==== Sys2Proof/Machine/Shed.lean ====
section
/-! DEFINITION. The Shed Unit's tiers and holds (R132 to R136). The bus current limit and the thermal checks, which
need the engine, are in Machine/Limits.lean. -/

namespace Sys2Proof.Machine

/-- Change one tier's record. -/
def Ev.setTier (e : Ev) (t : Fin 4) (f : TierRt → TierRt) : Ev := { e with tiers := e.tiers.set t (f e.tiers[t]) }

/-- The placing or removal of a LIMIT, HEAT or HOST hold queues or updates the POWER notice; a RIDE hold does not
(R136). -/
def Ev.holdNotice (e : Ev) (k : Hold) : Ev :=
  match k with
  | .ride => e
  | .limit | .heat | .host => e.powerNotice

/-- A hold is placed on a tier (R133). Placed on an empty set it makes the tier shed: the shed count rises and each
rail member gets a shed request (R134), in ascending number (log 30). DESIGN CHOICE (log 40): the POWER notice of R136
is queued before the shed requests are sent, so before a FAULT notice that a shed request queues (R37, R41). -/
def Ev.placeHold (e : Ev) (k : Hold) (t : Fin 4) : Ev :=
  if e.tiers[t].holds.has k then e
  else
    let was := e.tierShed t
    let e1 := (e.setTier t fun x => { x with holds := x.holds.put k true }).holdNotice k
    if was then e1
    else
      let e2 := e1.setTier t fun x => { x with shedCount := satInc 65535 x.shedCount }
      (e2.members t).foldl Ev.shedRequest e2

/-- A hold is removed from a tier (R133). The last one removed makes the tier unshed: each rail member gets an unshed
request (R135), in ascending number (log 30). -/
def Ev.removeHold (e : Ev) (k : Hold) (t : Fin 4) : Ev :=
  if e.tiers[t].holds.has k then
    let e1 := (e.setTier t fun x => { x with holds := x.holds.put k false }).holdNotice k
    if e1.tierShed t then e1 else (e1.members t).foldl Ev.unshedRequest e1
  else e

/-- The highest-numbered tier that holds RIDE (R120). -/
def State.highestRide (s : State) : Option (Fin 4) := allTiers.reverse.find? fun t => s.tiers[t].holds.ride

end Sys2Proof.Machine
end

