-- ==== Sys2Proof/Machine/Power.lean ====
section
/-! DEFINITION. The State Controller's own operations (chapter 1): writes of the target, the return, the mains gate,
changes of the system state, the key-hold timer and the wake qualifiers. -/

namespace Sys2Proof.Machine

/-- A write of the target (R3): a changed value queues STATE, disarms an armed return and is marked for the engine. -/
def Ev.writeTarget (e : Ev) (t : Target) : Ev :=
  if t = e.target then e
  else { { e with target := t, retArmed := false }.stateNotice with tgtChanged := true }

/-- An armed return fires (R18). -/
def Ev.fireReturn (e : Ev) : Ev :=
  if e.retArmed then
    match e.retVal with
    | some t => { e with retArmed := false, retVal := none }.writeTarget t
    | none => { e with retArmed := false }
  else e

/-- An operation that may open the mains gate: at its opening an armed return fires first, then the opening is marked
for the arbiter (R6, R18). -/
def Ev.gated (e : Ev) (f : Ev → Ev) : Ev :=
  if !e.gateOpen && (f e).gateOpen then { (f e).fireReturn with arb := true } else f e

/-- The key-hold timer after a change of the system state or an assertion of WAKE_KEY (R14). -/
def Ev.keyHoldLook (e : Ev) : Ev :=
  let up := decide (e.sys = .boardOn) || decide (e.sys = .panelOn)
  match e.keyHold with
  | .idle =>
    if up && e.pins.wake[wakeIdx .key] then
      { e with keyHold := .timing (e.now + 1000 * e.cfg.system.keyHoldMs) }
    else e
  | .timing _ => if up then e else { e with keyHold := .idle }
  | .fired => e

/-- A change of the system state queues STATE and moves the key-hold timer; a value already held is no change
(R2, R7, R14). -/
def Ev.setSys (e : Ev) (x : SysState) : Ev :=
  if x = e.sys then e else ({ e with sys := x }.stateNotice).keyHoldLook

/-- The LOCKOUT entry (R10, R74): the state, the target, the return, the wake qualifiers, the key-hold timing and
FAULT_N. DESIGN CHOICE (log 29): a BOARD_SNAP that completes under a lockout latch while the state already is LOCKOUT
does this work again. -/
def Ev.enterLockout (e : Ev) : Ev :=
  let e1 := (e.setSys .lockout).writeTarget .standby
  { e1 with
    retVal := none
    retArmed := false
    wakeQ := Vector.replicate 3 .idle
    keyHold := match e1.keyHold with
      | .timing _ => .idle
      | .idle => .idle
      | .fired => .fired }.setPlanLevel .faultN .low

/-! ### Wake qualifiers -/

/-- Change one wake qualifier. -/
def Ev.setWakeQ (e : Ev) (w : WakeLine) (q : WakeQ) : Ev := { e with wakeQ := e.wakeQ.set (wakeIdx w) q }

/-- A qualifier begins timing (R12). -/
def Ev.wakeBegin (e : Ev) (w : WakeLine) : Ev :=
  e.setWakeQ w (.qualifying (e.now + 1000 * (e.cfg.wake w).qualifyMs))

/-- A qualifier begins to watch at the end of start-up: an IDLE one whose line is asserted goes QUALIFYING (R12,
log 20). -/
def Ev.wakeWatch (e : Ev) (w : WakeLine) : Ev :=
  if e.wakeQ[wakeIdx w] = .idle ∧ e.pins.wake[wakeIdx w] then e.wakeBegin w else e

/-- A change of a wake line at its qualifier (R12); not watched in STARTING. -/
def Ev.wakeLine (e : Ev) (w : WakeLine) (asserted : Bool) : Ev :=
  if e.sys = .starting then e
  else
    match e.wakeQ[wakeIdx w], asserted with
    | .idle, true => e.wakeBegin w
    | .qualifying _, false | .held, false => e.setWakeQ w .idle
    | .idle, false | .qualifying _, true | .held, true => e

/-- BOARD_SNAP runs under a commit: a wake is ignored, in STANDBY too (R13, R122). -/
def State.wakeBarred (s : State) : Bool := s.isRunning .boardSnap && decide (s.ride.state = .committed)

/-- A wake is effective (R13). In LOCKOUT, STARTING and UNCONFIGURED it is ignored whatever runs (R1, R10, log 17). -/
def State.wakeEffective (s : State) : Bool :=
  match s.sys with
  | .standby => !s.wakeBarred
  | .boardOn | .panelOn => (s.isRunning .boardDown || s.isRunning .boardSnap) && !s.wakeBarred
  | .starting | .unconfigured | .lockout => false

end Sys2Proof.Machine
end

