-- ==== Sys2Proof/Machine/Ride.lean ====
section
/-! DEFINITION. The Ride-Through Controller's own operations (chapter 7): the moves between ride states, and the
shutdown record. The commit, which requests plans, is in Machine/RideEvents.lean. -/

namespace Sys2Proof.Machine

/-! ### The shutdown record -/

/-- An opening writes every field and resets the handshake slot (R128). DESIGN CHOICE (log 34): the fault source of an
opening whose cause is not FAULT is 0. -/
def Ev.openShutdown (e : Ev) (cause : ShutCause) (source : Nat) : Ev :=
  { e with shutdown := { ShutdownRec.reset with isOpen := true, cause := cause, source := source }, ride.slot := .none }

/-- The opening of a commit, with its figures (R122, R128); its fault source is 0 (log 34). -/
def Ev.openCommit (e : Ev) (cause : ShutCause) (rideMs : Nat) : Ev :=
  { e with
    shutdown :=
      { ShutdownRec.reset with
        isOpen := true
        cause := cause
        eAvail := e.bud.record.eAvail
        h := e.bud.record.h
        tiersHeld := #v[e.tiers[0].holds.ride, e.tiers[1].holds.ride, e.tiers[2].holds.ride, e.tiers[3].holds.ride]
        rideMs := rideMs }
    ride.slot := .none }

/-- The handshake outcome a record shows: the slot's unless the slot is NONE (R129). -/
def slotOr (slot kept : HsOutcome) : HsOutcome := if slot = .none then kept else slot

/-- The record is completed by the end of BOARD_SNAP (R129, first three rows). -/
def Ev.completeBySnap (e : Ev) (steps : Nat) : Ev :=
  if e.shutdown.isOpen || !e.shutdown.resetSeenPin then
    { e with
      shutdown.lastPlan := .boardSnap
      shutdown.stepsDone := steps
      shutdown.handshake := slotOr e.ride.slot e.shutdown.handshake
      shutdown.isOpen := false
      ride.slot := .none }
  else e

/-- The record is written whole by the end of BOARD_DOWN, DONE or FAILED, unless a forced-off is in hand (R129). -/
def Ev.writeByDown (e : Ev) (steps : Nat) : Ev :=
  if e.shutdown.isOpen then e
  else
    { e with
      shutdown :=
        { ShutdownRec.reset with
          cause := .hostRequest, handshake := e.ride.slot, lastPlan := .boardDown, stepsDone := steps }
      ride.slot := .none }

/-- The handshake slot takes the outcome of a down plan's or a snap plan's handshake (R129). -/
def Ev.slotTakes (e : Ev) (p : PlanId) (o : HsOutcome) : Ev :=
  match p with
  | .panelDown | .boardDown | .panelSnap | .boardSnap => { e with ride.slot := o }
  | .boardUp | .panelUp | .panelCare | .user => e

/-! ### Entries to ride states -/

/-- The entry to RIDING (R117). -/
def Ev.enterRiding (e : Ev) : Ev :=
  { e with
    ride.state := .riding
    ride.settling := false
    ride.settleTimer := none
    ride.restoreTimer := none
    ride.limitTimer := if e.cfg.ride.rideLimitMs = 0 then none else e.after e.cfg.ride.rideLimitMs }.powerNotice

/-- A dip is confirmed: the ride count rises, the ride clock starts, RIDING is entered (R116). -/
def Ev.startRide (e : Ev) : Ev :=
  { e with
    ride.stats.rides := satInc 65535 e.ride.stats.rides
    ride.clock := .running e.now
    ride.qualifyTimer := none }.enterRiding

/-- The entry to QUALIFY; with qualify_ms = 0 it is left for RIDING within the entry event (R115). -/
def Ev.enterQualify (e : Ev) : Ev :=
  let e1 := { e with ride.state := .qualify, ride.qualifyTimer := e.after e.cfg.ride.qualifyMs }.powerNotice
  if e.cfg.ride.qualifyMs = 0 then e1.startRide else e1

/-- The start of a dip is judged (R115): at a change of AC_OK, at an evaluation, at a change of arming and at the
entry to NORMAL (R124). -/
def Ev.judgeDip (e : Ev) : Ev :=
  if e.ride.state = .normal ∧ e.rideArmed ∧ e.dipSeen then e.enterQualify else e

/-- The move to NORMAL: the below-dip count returns to 0 and the gate is looked at (R6, R115). -/
def Ev.enterNormal (e : Ev) : Ev :=
  (e.gated fun e => { e with ride.state := .normal, ride.belowDip := 0 }.powerNotice).judgeDip

/-- A short dip returns to NORMAL (R116). -/
def Ev.shortDip (e : Ev) : Ev :=
  { e with ride.qualifyTimer := none, ride.stats.shortDips := satInc 65535 e.ride.stats.shortDips }.enterNormal

/-- The return is armed as the ride state leaves REST for NORMAL (R18). -/
def Ev.armReturn (e : Ev) : Ev :=
  if e.cfg.ride.autoReturn ∧ (e.retVal = some .boardOn ∨ e.retVal = some .panelOn) then { e with retArmed := true }
  else e

/-- REST is left for NORMAL: the return is armed, then the gate is looked at (R18, R124). -/
def Ev.leaveRest (e : Ev) : Ev := ({ e with ride.restTimer := none }.armReturn).enterNormal

/-- REST is entered at BOARD_SNAP's completion (R124). -/
def Ev.enterRest (e : Ev) : Ev :=
  let e1 := allTiers.foldl (fun e t => e.removeHold .ride t) e
  let e2 := { e1 with ride.state := .rest, ride.restTimer := e1.after e1.cfg.ride.restMs }.powerNotice
  if e1.cfg.ride.restMs = 0 then e2.leaveRest else e2

/-- The end of BOARD_DOWN or BOARD_SNAP reaches ride-through with its count of steps (R60, R123, R129). -/
def Ev.rideOnPlanEnd (e : Ev) (p : PlanId) (o : PlanOutcome) (steps : Nat) : Ev :=
  match p with
  | .boardSnap =>
    let e1 := e.completeBySnap steps
    if e1.ride.state = .committed then e1.enterRest else e1
  | .boardDown => if o = .done ∨ o = .failed then e.writeByDown steps else e
  | .boardUp | .panelUp | .panelDown | .panelSnap | .panelCare | .user => e

/-- One release of RESTORING (R120): the highest-numbered RIDE hold goes; if a tier still holds RIDE the interval
starts again, otherwise the recovery is counted and the ride ends in NORMAL. -/
def Ev.restoreRelease (e : Ev) : Ev :=
  let e1 := match e.highestRide with
    | some t => e.removeHold .ride t
    | none => e
  if e1.highestRide.isSome then { e1 with ride.restoreTimer := e1.after e1.cfg.ride.restoreIntervalMs }
  else
    { e1 with
      ride.restoreTimer := none
      ride.stats.recoveries := satInc 65535 e1.ride.stats.recoveries
      ride.clock := e1.stop e1.ride.clock }.enterNormal

/-- The entry to RESTORING (R119, R120): the settling of RIDING is over (log 18). -/
def Ev.enterRestoring (e : Ev) : Ev :=
  ({ e with
     ride.state := .restoring
     ride.settling := false
     ride.settleTimer := none
     ride.limitTimer := none
     ride.belowDip := 0 }.powerNotice).restoreRelease

/-- Settling stops: the time counted is lost (R119). -/
def Ev.settlingStop (e : Ev) : Ev :=
  if e.ride.settling then { e with ride.settling := false, ride.settleTimer := none }.powerNotice else e

/-- Settling begins; with settle_ms = 0 RESTORING is entered at once (R119). -/
def Ev.settlingBegin (e : Ev) : Ev :=
  let e1 := { e with ride.settling := true, ride.settleTimer := e.after e.cfg.ride.settleMs }.powerNotice
  if e.cfg.ride.settleMs = 0 then e1.enterRestoring else e1

end Sys2Proof.Machine
end

