-- ==== Sys2Proof/Machine/Plans.lean ====
section
/-! DEFINITION. The Plan Engine (chapter 3): snap requests, plan ends, plan starts, steps, the arbiter, cuts and
aborts, and the serving of the marks an operation leaves on the event. Here stand also the fault actions of R154 and
R155, which request plans. -/

namespace Sys2Proof.Machine

/-! ### Snap requests (R63) -/

/-- A request for one snap plan is taken by the plan's status; it is discarded in STARTING and UNCONFIGURED (R45).
DESIGN CHOICE (log 39): R63 holds in every ride state, so a fault action in COMMITTED that finds PANEL_SNAP ended and
BOARD_SNAP running adds a PANEL_SNAP entry; R156's line on COMMITTED speaks of both snap plans in hand. -/
def Ev.snapRequest (e : Ev) (p : PlanId) (cause : Cause) : Ev :=
  match e.sys with
  | .starting | .unconfigured => e
  | .standby | .boardOn | .panelOn | .lockout =>
    match e.planStatus p with
    | .idle => { e with reqs := e.reqs.put p (some cause) }
    | .pending | .running | .tail => e.setPlan p fun x => { x with merged := true }

/-- A request for both plans: two requests, PANEL_SNAP first (R63). -/
def Ev.snapBoth (e : Ev) (cause : Cause) : Ev := (e.snapRequest .panelSnap cause).snapRequest .boardSnap cause

/-- A snap plan is PENDING or RUNNING. -/
def State.snapInHand (s : State) : Bool :=
  decide (s.planStatus .panelSnap ≠ .idle) || decide (s.planStatus .boardSnap ≠ .idle)

/-! ### The end of a plan (R60) -/

/-- The system state after a plan that ended DONE (R7, R10). -/
def Ev.stateOnDone (e : Ev) (p : PlanId) : Ev :=
  match p with
  | .boardUp | .panelDown => e.setSys .boardOn
  | .panelUp => e.setSys .panelOn
  | .boardDown => e.setSys .standby
  | .panelSnap => if e.sys = .panelOn then e.setSys .boardOn else e
  | .boardSnap => if e.anyLockout then e.enterLockout else e.setSys .standby
  | .panelCare | .user => e

/-- The settled state as a target (R8). -/
def SysState.toTarget : SysState → Option Target
  | .standby => some .standby
  | .boardOn => some .boardOn
  | .panelOn => some .panelOn
  | .starting | .unconfigured | .lockout => none

/-- A failed up plan: the target becomes the system state if R5 would choose an up plan again (R8). -/
def Ev.upFailed (e : Ev) : Ev :=
  match e.duePlan, e.sys.toTarget with
  | some d, some t => if d.isUp then e.writeTarget t else e
  | some _, none | none, _ => e

/-- What the State Controller does with a plan that ended FAILED (R8, R9). -/
def Ev.stateOnFailed (e : Ev) (p : PlanId) : Ev :=
  match p with
  | .boardUp | .panelUp => e.upFailed
  | .panelDown => e.snapRequest .panelSnap .planFailed
  | .boardDown => e.snapBoth .planFailed
  | .panelSnap | .boardSnap | .panelCare | .user => e

/-- What the State Controller does with the end of a plan (R7 to R9). A change of the system state may change the
arming of ride-through, which is then judged (R115). -/
def Ev.stateOnEnd (e : Ev) (p : PlanId) (o : PlanOutcome) : Ev :=
  match o with
  | .done => (e.stateOnDone p).judgeDip
  | .failed => e.stateOnFailed p
  | .none | .aborted | .cut => e

/-- The first four actions at the end of a plan, in order (R60). The fifth, the arbiter's run, is marked. -/
def Ev.endPlan (e : Ev) (run : Run) (o : PlanOutcome) (step : Nat) (cause : Cause) : Ev :=
  let p := run.plan
  let e1 : Ev :=
    { e.setPlan p fun x => { x with lastOutcome := o, outcomeStep := step, outcomeCause := cause } with
      run := none, ans := none }
  let e2 := e1.notice (.planDone p) (.planDone o step cause e1.plans[p.idx].merged)
  { (e2.stateOnEnd p o).rideOnPlanEnd p o run.stepsDone with planEnded := true, arb := true }

/-! ### The steps (R51 to R57) -/

/-- A step record of a plan in force. -/
def State.stepOf (s : State) (p : PlanId) (n : Nat) : StepRec := (s.cfg.plan p).step n

/-- The line a LINE step names (R47). -/
def StepRec.lineId (c : StepRec) : LineId :=
  match c.target with
  | 0 => .blEn
  | 1 => .blDim
  | 2 => .pnlRstN
  | 3 => .audMute
  | 4 => .sysRstN
  | 5 => .faultN
  | 6 => .gpoA
  | _ => .gpoB

/-- The rail a RAIL_ON or RAIL_OFF step names (R47). -/
def StepRec.rail (c : StepRec) : Rail := Fin.ofNat 12 c.target

/-- The level a LINE step writes (R47). -/
def StepRec.level (c : StepRec) : Level := Level.ofBool (decide (c.value ≠ 0))

/-- The cause an OFF_PENDING notice carries: a snap plan's request cause, PLANNED for the other plans (R56). -/
def Run.handshakeCause (run : Run) : Cause := if run.plan.isSnap then run.cause else .planned

/-- A HANDSHAKE step begins: SKIPPED in STANDBY and LOCKOUT, otherwise it waits and OFF_PENDING is queued (R56). -/
def Ev.beginHandshake (e : Ev) (run : Run) (ms : Nat) : Ev :=
  match e.sys with
  | .standby | .lockout =>
    ({ e with hsMemory := .skipped }.slotTakes run.plan .skipped).answer (.completed .none)
  | .starting | .unconfigured | .boardOn | .panelOn =>
    (e.setWait (.handshake (e.now + 1000 * ms))).notice .offPending (.offPending ms run.handshakeCause)

/-- The current step of the run begins (R50 to R56). -/
def Ev.beginStep (e : Ev) : Ev :=
  match e.run with
  | none => e
  | some run =>
    let c := e.stepOf run.plan run.current
    match c.kind with
    | .railOn => (e.setWait (.railOn c.rail)).enableRequest c.rail
    | .railOff => (e.setWait (.railOff c.rail)).offRequest c.rail
    | .line => (e.setPlanLevel c.lineId c.level).answer (.completed .none)
    | .wait =>
      if c.value = 0 then e.answer (.completed .none) else e.setWait (.time (e.now + 1000 * c.value))
    | .awaitLock =>
      if e.lockLevel then e.answer (.completed .none) else e.setWait (.lock (e.now + 1000 * c.value))
    | .handshake => e.beginHandshake run c.value

/-- The last exception of a run (R58). -/
def Ev.setException (e : Ev) (p : PlanId) (step : Nat) (cause : Cause) : Ev :=
  e.setPlan p fun x => { x with excStep := step, excCause := cause }

/-- A step number is raised and that step begins (R50). -/
def Ev.goTo (e : Ev) (run : Run) (n : Nat) : Ev := { e with run := some { run with current := n } }.beginStep

/-- The engine goes on after a completion or a passed-over miss: the plan ends after its last body or tail step,
otherwise the next step begins (R50, R58, R59). -/
def Ev.goOn (e : Ev) (run : Run) : Ev :=
  if run.inTail then
    if (e.cfg.plan run.plan).stepCount ≤ run.current then
      e.endPlan run run.tailOutcome run.tailStep run.tailCause
    else e.goTo run (run.current + 1)
  else if (e.cfg.plan run.plan).bodyLast ≤ run.current then
    e.endPlan run .done e.plans[run.plan.idx].excStep e.plans[run.plan.idx].excCause
  else e.goTo run (run.current + 1)

/-- The tail is entered for an outcome (R59, R66). -/
def Ev.enterTail (e : Ev) (run : Run) (o : PlanOutcome) (cause : Cause) : Ev :=
  { e with
    run := some { run with
      inTail := true, current := (e.cfg.plan run.plan).tailIndex, tailOutcome := o, tailStep := run.current,
      tailCause := cause, wait := .nothing } }.beginStep

/-- A FAIL miss of a transition or service plan (R59). -/
def Ev.failMiss (e : Ev) (run : Run) (cause : Cause) : Ev :=
  if run.inTail then (e.setException run.plan run.current cause).goOn run
  else if (e.cfg.plan run.plan).tailIndex = 0 then e.endPlan run .failed run.current cause
  else e.enterTail run .failed cause

/-- A miss of this step stops the plan: on_miss is FAIL and the plan is no snap plan (R58, R59). -/
def StepRec.stops (c : StepRec) (p : PlanId) : Bool := decide (c.onMiss = .fail) && !p.isSnap

/-- The engine acts on the answer of the step in flight (R50, R52, R58, R59). -/
def Ev.actOnAnswer (e : Ev) (run : Run) (a : Answer) : Ev :=
  let stops := (e.stepOf run.plan run.current).stops run.plan
  match a with
  | .completed note =>
    if note = .none then e.goOn run
    else if note = .drainLate ∧ stops then e.failMiss run .drainLate
    else (e.setException run.plan run.current note).goOn run
  | .missed cause =>
    if stops then e.failMiss run cause else (e.setException run.plan run.current cause).goOn run

/-- The answer marked on the event is taken: the step is counted and acted on (R50, R60). -/
def Ev.serveAnswer (e : Ev) : Ev :=
  match e.run, e.ans with
  | some run, some a =>
    let run' : Run := { run with stepsDone := run.stepsDone + 1, wait := .nothing }
    { e with run := some run', ans := none }.actOnAnswer run' a
  | some _, none | none, _ => e

/-- Steps are taken until one waits or the plan ends; the bound exceeds the steps of any plan (log 22). -/
def Ev.runSteps (n : Nat) (e : Ev) : Ev :=
  match n with
  | 0 => e
  | m + 1 => if e.ans.isSome && e.run.isSome then Ev.runSteps m e.serveAnswer else e

/-- The bound on the steps of one run in one event (log 22). -/
def stepFuel : Nat := 40

/-! ### The start of a plan (R49) -/

/-- A plan starts: actions 1 to 5 of R49, arming is judged (R115), and step 1 begins, or a plan with an empty body
ends DONE at its start. -/
def Ev.startPlan (e : Ev) (p : PlanId) : Ev :=
  let run : Run :=
    { plan := p, inTail := false, current := 1, cause := (e.reqs.get p).getD .planned, tailOutcome := .none,
      tailStep := 0, tailCause := .none, stepsDone := 0, wait := .nothing }
  let e1 : Ev :=
    { e.setPlan p fun x =>
        { x with merged := false, excStep := 0, excCause := .none, runCount := satInc 65535 x.runCount } with
      reqs := e.reqs.put p none, run := some run, ans := none }
  let e2 := e1.endSupervision
  let e3 := (if p.isSnap then { e2 with pulse := .idle } else e2).judgeDip
  if (e3.cfg.plan p).bodyLast = 0 then e3.endPlan run .done 0 .none else e3.beginStep

/-! ### The arbiter (R61, R62) -/

/-- The transition plan R5 names, if it is startable: a down plan always, an up plan while the gate is open. -/
def State.startable (s : State) : Option PlanId :=
  match s.duePlan with
  | some p => if p.isUp && !s.gateOpen then none else some p
  | none => none

/-- The system state allows a service plan (R45). -/
def State.allowsService (s : State) (p : PlanId) : Bool :=
  match p, s.sys with
  | .panelCare, .standby | .panelCare, .boardOn | .user, .boardOn | .user, .panelOn => true
  | .panelCare, .starting | .panelCare, .unconfigured | .panelCare, .panelOn | .panelCare, .lockout
  | .user, .starting | .user, .unconfigured | .user, .standby | .user, .lockout
  | .boardUp, _ | .panelUp, _ | .panelDown, _ | .boardDown, _ | .panelSnap, _ | .boardSnap, _ => false

/-- A pending service plan that the state no longer allows is withdrawn (R62). -/
def Ev.withdrawService (e : Ev) (p : PlanId) : Ev :=
  if e.isPending p && !e.allowsService p then
    let e1 : Ev :=
      { e.setPlan p fun x => { x with lastOutcome := .aborted, outcomeStep := 0, outcomeCause := .stateChanged } with
        reqs := e.reqs.put p none }
    e1.notice (.planDone p) (.planDone .aborted 0 .stateChanged e1.plans[p.idx].merged)
  else e

/-- One run of the arbiter: the event after the withdrawals it made, and the plan it picks (R61, R62). In STARTING and
UNCONFIGURED it finds no candidate. -/
def Ev.choose (e : Ev) : Ev × Option PlanId :=
  match e.sys with
  | .starting | .unconfigured => (e, none)
  | .standby | .boardOn | .panelOn | .lockout =>
    if e.isPending .panelSnap then (e, some .panelSnap)
    else if e.isPending .boardSnap then (e, some .boardSnap)
    else
      match e.startable with
      | some p => (e, some p)
      | none =>
        let e1 := e.withdrawService .panelCare
        if e1.isPending .panelCare then (e1, some .panelCare)
        else
          let e2 := e1.withdrawService .user
          if e2.isPending .user then (e2, some .user) else (e2, none)

/-- The arbiter runs while the engine is idle; a plan that ends within the event is followed by another run (R60,
R61). The bound is never reached (log 22). -/
def Ev.runArbiter (n : Nat) (e : Ev) : Ev :=
  match n with
  | 0 => e
  | m + 1 =>
    if e.engineIdle then
      match e.choose with
      | (e1, some p) => Ev.runArbiter m ((e1.startPlan p).runSteps stepFuel)
      | (e1, none) => e1
    else e

/-- The bound on the plans that start in one event (log 22). -/
def planFuel : Nat := 32

/-- The arbiter's run, and after it the arming of supervision if a plan has ended (R60, R61, R81). Changes of the
target and triggers that arose meanwhile are served by it. -/
def Ev.arbitrate (e : Ev) : Ev :=
  let e1 : Ev := { e.runArbiter planFuel with arb := false, tgtChanged := false }
  if e1.planEnded then { e1 with planEnded := false }.armSupervision else e1

/-! ### Cuts and aborts (R64, R66) -/

/-- The step in flight is abandoned (R64): it stops waiting, a handshake ends ABANDONED and its notice is withdrawn. -/
def Ev.abandon (e : Ev) : Ev :=
  match e.waitOf with
  | .handshake _ => ({ e with hsMemory := .abandoned }.withdraw .offPending).setWait .nothing
  | .nothing | .railOn _ | .railOff _ | .time _ | .lock _ => e.setWait .nothing

/-- The request cause of the first snap entry in the arbiter's order (R64). -/
def PendingSet.firstSnapCause (q : PendingSet) : Cause := (q.panelSnap.orElse fun _ => q.boardSnap).getD .none

/-- A running transition or service plan is cut (R64). -/
def Ev.cut (e : Ev) : Ev :=
  match e.run with
  | some run =>
    if run.plan.isSnap then e else e.abandon.endPlan run .cut run.current e.reqs.firstSnapCause
  | none => e

/-- After snap requests have been taken: a transition or service plan is cut and the arbiter runs; a running snap plan
goes on; an idle engine runs the arbiter (R63). -/
def Ev.takeSnaps (e : Ev) : Ev :=
  match e.run with
  | some run => if run.plan.isSnap then e else e.cut.arbitrate
  | none => e.arbitrate

/-- A running service plan before its tail is aborted by a change of the target (R66). -/
def Ev.abortService (e : Ev) : Ev :=
  match e.run with
  | some run =>
    if run.plan.isService && !run.inTail then
      if (e.cfg.plan run.plan).tailIndex = 0 then e.abandon.endPlan run .aborted run.current .targetChanged
      else (e.abandon.enterTail run .aborted .targetChanged).runSteps stepFuel
    else e
  | none => e

/-- A change of the target is reported to the engine without running the arbiter: a commit, a key hold or a fault
action follows it with its snap requests (R61, log 13). -/
def Ev.reportTarget (e : Ev) : Ev :=
  if e.tgtChanged then { e with tgtChanged := false }.abortService else e

/-- The marks of an operation are served: the answer to the step in flight, a change of the target, a trigger of the
arbiter (R50, R61, R66). -/
def Ev.serve (e : Ev) : Ev :=
  let e1 := e.runSteps stepFuel
  let e2 : Ev := if e1.tgtChanged then { e1.reportTarget with arb := true } else e1
  if e2.arb then e2.arbitrate else e2

/-! ### Fault actions (R154, R155) -/

/-- The cause of the snap requests and of the shutdown record a source's SYSTEM or LOCKOUT action makes (R155). -/
def snapCauseOf (src : Fin 15) : Cause := if src = srcOvertemp then .overtemp else .fault

/-- The shutdown record a SYSTEM or LOCKOUT action opens (R155, R128); under OVERTEMP its fault source is 0 (log 34). -/
def Ev.openByFault (e : Ev) (src : Fin 15) : Ev :=
  if src = srcOvertemp then e.openShutdown .overtemp 0 else e.openShutdown .fault src.val

/-- Action PANEL (R154). -/
def Ev.actPanel (e : Ev) : Ev :=
  ((if e.target = .panelOn then (e.writeTarget .boardOn).reportTarget else e).snapRequest .panelSnap .fault).takeSnaps

/-- Actions SYSTEM and LOCKOUT (R155). -/
def Ev.actSystem (e : Ev) (src : Fin 15) : Ev :=
  let e1 := (e.writeTarget .standby).reportTarget
  let e2 := if e.planStatus .boardSnap = .idle then e1.openByFault src else e1
  (e2.snapBoth (snapCauseOf src)).takeSnaps

/-- The action marked on the event is applied (R154, R155). -/
def Ev.applyAct (e : Ev) : Ev :=
  match e.act with
  | none => e
  | some (src, a) =>
    let e1 : Ev := { e with act := none }
    match a with
    | .none | .drop => e1
    | .panel => e1.actPanel
    | .system | .lockout => e1.actSystem src

/-- Everything an operation has marked is served, the fault action last (log 24). -/
def Ev.settle (e : Ev) : Ev := e.serve.applyAct

end Sys2Proof.Machine
end

