-- ==== Sys2Proof/Machine/Limits.lean ====
section
/-! DEFINITION. The bus current limit and the thermal checks of the Shed Unit (sections 8.4 and 8.5). -/

namespace Sys2Proof.Machine

/-! ### The bus current limit -/

/-- The limit and the thermal checks act in these states alone (R138, R144). -/
def SysState.watchesLimits : SysState → Bool
  | .standby | .boardOn | .panelOn | .lockout => true
  | .starting | .unconfigured => false

/-- The BUS_CURRENT condition is reported ended when both the soft and the hard condition are absent (R138). -/
def Ev.limitEnded (e : Ev) : Ev :=
  if e.limit.softPresent || e.limit.hardPresent then e else e.conditionEnded srcBusCurrent

/-- A soft event (R139). -/
def Ev.softEvent (e : Ev) (ib : Nat) : Ev :=
  let c : LimitCfg := e.cfg.limit
  let e1 := { e with limit.softPresent := true, limit.softCount := 0, limit.releaseCount := 0 }.occurrence srcBusCurrent
    { cause := .softLimit, value := ib, latching := decide (c.mode = LimitMode.latch), withCondition := true, action := .none }
  match c.mode with
  | .level | .count =>
    ({ e1 with limit.state := .limiting, limit.countMode := decide (c.mode = LimitMode.count), limit.holdTier := some c.tier
     }.placeHold .limit c.tier)
  | .latch => ({ e1 with limit.state := .latched, limit.holdTier := some c.tier }.placeHold .limit c.tier)
  | .report | .off => { e1 with limit.state := .noted }

/-- The LIMIT hold is removed from the hold tier, if it is placed. -/
def Ev.dropLimitHold (e : Ev) : Ev :=
  match e.limit.holdTier with
  | some t => { e with limit.holdTier := none }.removeHold .limit t
  | none => e

/-- An episode in LIMITING or NOTED ends (R140). -/
def Ev.endEpisode (e : Ev) : Ev :=
  ({ e.dropLimitHold with
     limit.softPresent := false, limit.softCount := 0, limit.releaseCount := 0, limit.countMode := false,
     limit.state := .watch }).limitEnded

/-- The soft test in WATCH (R139). -/
def Ev.softWatch (e : Ev) (ib : Nat) : Ev :=
  let c : LimitCfg := e.cfg.limit
  if c.mode = .off then { e with limit.softCount := 0 }
  else if ib ≤ c.softCode then { e with limit.softCount := 0 }
  else if c.samples ≤ e.limit.softCount + 1 then e.softEvent ib
  else { e with limit.softCount := e.limit.softCount + 1 }

/-- The soft test in LIMITING and NOTED (R140). -/
def Ev.softEpisode (e : Ev) (ib : Nat) : Ev :=
  let c : LimitCfg := e.cfg.limit
  let n := e.limit.releaseCount + 1
  if e.limit.countMode then
    if c.countM ≤ n then e.endEpisode else { e with limit.releaseCount := n }
  else if ib < c.releaseCode then
    if c.samples ≤ n then e.endEpisode else { e with limit.releaseCount := n }
  else { e with limit.releaseCount := 0 }

/-- The soft test in LATCHED (R141). -/
def Ev.softLatched (e : Ev) (ib : Nat) : Ev :=
  let c : LimitCfg := e.cfg.limit
  let n := e.limit.releaseCount + 1
  if e.limit.softPresent then
    if ib < c.releaseCode then
      if c.samples ≤ n then { e with limit.releaseCount := n, limit.softPresent := false }.limitEnded
      else { e with limit.releaseCount := n }
    else { e with limit.releaseCount := 0 }
  else e

/-- The soft test (R139 to R141). -/
def Ev.softTest (e : Ev) (ib : Nat) : Ev :=
  match e.limit.state with
  | .watch => e.softWatch ib
  | .limiting | .noted => e.softEpisode ib
  | .latched => e.softLatched ib

/-- The hard test (R142, log 27). -/
def Ev.hardTest (e : Ev) (ib : Nat) : Ev :=
  let c : LimitCfg := e.cfg.limit
  if c.mode = .off then e
  else if c.hardCode < ib then
    if e.limit.hardCount + 1 < c.samples then { e with limit.hardCount := e.limit.hardCount + 1 }
    else if e.limit.hardCount < c.samples then
      { e with limit.hardCount := c.samples, limit.hardPresent := true }.occurrenceAct srcBusCurrent
        { cause := .hardLimit, value := ib, latching := false, withCondition := true, action := .system }
    else e
  else
    let e1 : Ev := { e with limit.hardCount := 0, limit.hardPresent := false }
    if e.limit.hardPresent then e1.limitEnded else e1

/-- A budget evaluation reaches the limit: the soft test first, the hard test second (R138). -/
def Ev.limitEvaluation (e : Ev) (ib : Nat) : Ev :=
  if e.sys.watchesLimits then (((e.softTest ib).settle).hardTest ib).settle else e

/-- The Fault Unit has released the BUS_CURRENT record's latch (R141). -/
def Ev.limitRelease (e : Ev) : Ev :=
  if e.limit.state = .latched then e.endEpisode else e

/-! ### Edits of the limit entry (R143) -/

/-- The counts return to 0 after an edit of a code, of N or of count_M (R143). -/
def Ev.limitEditCounts (e : Ev) (old new : LimitCfg) : Ev :=
  let e1 : Ev :=
    if old.softCode ≠ new.softCode ∨ old.releaseCode ≠ new.releaseCode ∨ old.samples ≠ new.samples
        ∨ old.countM ≠ new.countM then
      { e with limit.softCount := 0, limit.hardCount := 0, limit.releaseCount := 0 }
    else e
  if old.hardCode ≠ new.hardCode then { e1 with limit.hardCount := 0 } else e1

/-- A changed limit_tier moves a placed hold (R143). -/
def Ev.limitEditTier (e : Ev) (new : LimitCfg) : Ev :=
  match e.limit.holdTier with
  | some t =>
    if t = new.tier then e
    else ({ e with limit.holdTier := some new.tier }.removeHold .limit t).placeHold .limit new.tier
  | none => e

/-- A changed limit_mode (R143). -/
def Ev.limitEditMode (e : Ev) (new : LimitCfg) : Ev :=
  let e1 := match e.limit.state with
    | .limiting | .noted => e.endEpisode
    | .watch | .latched => e
  if new.mode = .off then
    let e2 : Ev := { e1 with limit.softCount := 0, limit.hardCount := 0, limit.hardPresent := false }
    if e1.limit.hardPresent then e2.limitEnded else e2
  else e1

/-- The effects of an accepted edit of the limit entry (R143). -/
def Ev.limitEdited (e : Ev) (old new : LimitCfg) : Ev :=
  let e1 := e.limitEditCounts old new
  let e2 := if old.tier ≠ new.tier then e1.limitEditTier new else e1
  if old.mode ≠ new.mode then e2.limitEditMode new else e2

/-! ### The thermal checks -/

/-- HOT is entered (R145). -/
def Ev.enterHot (e : Ev) (t : Int) : Ev :=
  { e with thermal.state := .hot }.occurrenceAct srcOvertemp
    { cause := .overtemp, value := t.toNat, latching := false, withCondition := true, action := .system }

/-- The HEAT hold is placed on heat_tier (R144). -/
def Ev.placeHeat (e : Ev) : Ev :=
  { e with thermal.holdTier := some e.cfg.thermal.tier }.placeHold .heat e.cfg.thermal.tier

/-- The HEAT hold is removed from the tier that carries it (R144). -/
def Ev.dropHeat (e : Ev) : Ev :=
  match e.thermal.holdTier with
  | some t => { e with thermal.holdTier := none }.removeHold .heat t
  | none => e

/-- HOT is left (R145): the gate opens, the condition ends, the hold stays in WARN and goes in COOL. -/
def Ev.leaveHot (e : Ev) (t : Int) : Ev :=
  if ((e.cfg.thermal.warn : Int) - e.cfg.thermal.hyst) ≤ t then
    (e.gated fun e => { e with thermal.state := .warn }).conditionEnded srcOvertemp
  else ((e.gated fun e => { e with thermal.state := .cool }).conditionEnded srcOvertemp).dropHeat

/-- A temperature completion (R144, R145). -/
def Ev.thermalMove (e : Ev) (t : Int) : Ev :=
  let c : ThermalCfg := e.cfg.thermal
  match e.thermal.state with
  | .cool =>
    if (c.shutdown : Int) ≤ t then e.placeHeat.enterHot t
    else if (c.warn : Int) ≤ t then { e.placeHeat with thermal.state := .warn }
    else e
  | .warn =>
    if (c.shutdown : Int) ≤ t then e.enterHot t
    else if t < (c.warn : Int) - c.hyst then { e with thermal.state := .cool }.dropHeat
    else e
  | .hot => if t < (c.shutdown : Int) - c.hyst then e.leaveHot t else e

/-- A temperature completion reaches the thermal checks (R144); ignored in STARTING and UNCONFIGURED. -/
def Ev.thermalCompletion (e : Ev) (t : Int) : Ev :=
  if e.sys.watchesLimits then (e.thermalMove t).settle else e

/-- A changed heat_tier moves a placed HEAT hold (R146). -/
def Ev.heatTierEdited (e : Ev) (tier : Fin 4) : Ev :=
  match e.thermal.holdTier with
  | some t =>
    if t = tier then e
    else ({ e with thermal.holdTier := some tier }.removeHold .heat t).placeHold .heat tier
  | none => e

end Sys2Proof.Machine
end

