-- ==== Sys2Proof/Machine/RideEvents.lean ====
section
/-! DEFINITION. The events of the Ride-Through Controller (chapter 7): the commit, a budget evaluation, a change of
AC_OK, and its timers. -/

namespace Sys2Proof.Machine

/-- The ride clock in whole ms, saturating (R117). -/
def State.rideMs (s : State) : Nat := min 65535 (s.countedUs s.ride.clock / 1000)

/-- The shutdown cause a commit writes (R122, R128). -/
def commitCause (rideLimit : Bool) : ShutCause := if rideLimit then .rideLimit else .powerLoss

/-- The cause of a commit's snap requests (R122). -/
def commitRequest (rideLimit : Bool) : Cause := if rideLimit then .rideLimit else .powerLoss

/-- COMMITTED is entered: the timers and the clock stop, settling is cleared (R122, action 1). -/
def Ev.enterCommitted (e : Ev) : Ev :=
  { e with
    ride.state := .committed
    ride.settling := false
    ride.limitTimer := none
    ride.settleTimer := none
    ride.clock := e.stop e.ride.clock }

/-- A commit (R122), its six actions in order. -/
def Ev.commit (e : Ev) (rideLimit : Bool) : Ev :=
  let e1 := e.enterCommitted
  let e2 : Ev := { e1 with retVal := some e1.target, retArmed := false }
  let e3 := (e2.writeTarget .standby).reportTarget
  let e4 := e3.openCommit (commitCause rideLimit) e3.rideMs
  let e5 := { e4 with ride.stats.commits := satInc 65535 e4.ride.stats.commits }.powerNotice
  (e5.snapBoth (commitRequest rideLimit)).takeSnaps

/-- The below-dip count after an evaluation (R115). -/
def Ev.countBelow (e : Ev) (vb : Nat) : Ev :=
  { e with ride.belowDip := if vb < e.cfg.ride.dipLevel then satInc 2 e.ride.belowDip else 0 }

/-- The return test of QUALIFY (R116). -/
def State.returnTest (s : State) (vb : Nat) : Bool := s.pins.acOk && decide (s.cfg.ride.dipLevel ≤ vb)

/-- Step 1 of an evaluation in RIDING, for one tier (R117). -/
def Ev.rideHold (e : Ev) (t : Fin 4) : Ev :=
  if !e.tiers[t].holds.ride && decide (e.bud.record.tCommit < e.cfg.ride.thresholds[t]) then
    (e.placeHold .ride t).serve
  else e

/-- Step 3 of an evaluation in RIDING: settling begins or stops (R119). -/
def Ev.settlingStep (e : Ev) (vb : Nat) : Ev :=
  if e.ride.settling then
    if vb < e.cfg.ride.restoreLevel then e.settlingStop else e
  else if e.pins.acOk && decide (e.cfg.ride.restoreLevel ≤ vb) then e.settlingBegin
  else e

/-- An evaluation in RIDING: holds, commit, settling (R117). -/
def Ev.ridingEvaluation (e : Ev) (vb : Nat) : Ev :=
  let e1 := allTiers.foldl Ev.rideHold e
  if e1.bud.record.h ≤ 0 then e1.commit false else e1.settlingStep vb

/-- A budget evaluation reaches ride-through (R113, R115 to R121), used by the ride state at its beginning (log 23). -/
def Ev.rideEvaluation (e : Ev) (vb : Nat) : Ev :=
  let e1 := e.countBelow vb
  match e.ride.state with
  | .normal => e1.judgeDip
  | .qualify => if e1.returnTest vb then e1.shortDip else e1
  | .riding => e1.ridingEvaluation vb
  | .restoring => if e1.ride.belowDip = 2 then e1.enterRiding else e1
  | .committed | .rest => e1

/-- A change of AC_OK: the gate first (R6), then the ride state's own use of it (R115, R116, R119, R121). -/
def Ev.acChange (e : Ev) (asserted : Bool) : Ev :=
  let e1 := e.gated fun e => { e with pins.acOk := asserted }
  match e.ride.state with
  | .normal => e1.judgeDip
  | .qualify => if e1.returnTest e1.bud.record.vb then e1.shortDip else e1
  | .riding => if asserted then e1 else e1.settlingStop
  | .restoring => if asserted then e1 else e1.enterRiding
  | .committed | .rest => e1

/-! ### The commands -/

/-- AC_OK_CHANGE. A level the pin already has is no change (log 3). -/
def execAcOkChange (asserted : Bool) : State → Host.Outcome State Fault Refusal :=
  runEvent fun e => if asserted = e.pins.acOk then e else (e.acChange asserted).settle

/-- QUALIFY_EXPIRY (R116). -/
def execQualifyExpiry : State → Host.Outcome State Fault Refusal :=
  runEvent fun e => if e.ride.qualifyTimer.isSome then e.startRide.settle else e

/-- RIDE_LIMIT_EXPIRY (R118). -/
def execRideLimitExpiry : State → Host.Outcome State Fault Refusal :=
  runEvent fun e => if e.ride.limitTimer.isSome then (e.commit true).settle else e

/-- SETTLE_EXPIRY (R119). -/
def execSettleExpiry : State → Host.Outcome State Fault Refusal :=
  runEvent fun e => if e.ride.settleTimer.isSome then e.enterRestoring.settle else e

/-- RESTORE_INTERVAL_EXPIRY (R120). -/
def execRestoreIntervalExpiry : State → Host.Outcome State Fault Refusal :=
  runEvent fun e => if e.ride.restoreTimer.isSome then e.restoreRelease.settle else e

/-- REST_EXPIRY (R124). -/
def execRestExpiry : State → Host.Outcome State Fault Refusal :=
  runEvent fun e => if e.ride.restTimer.isSome then e.leaveRest.settle else e

end Sys2Proof.Machine
end

