-- ==== Sys2Proof/Machine/Scanner.lean ====
section
/-! DEFINITION. The Measurement Scanner (chapter 5): scaling, result records, the period and its conversions. What a
consumer does with a completion is in its own file. -/

namespace Sys2Proof.Machine

/-- An input's scaling kind (R88). -/
def scalingKind (i : Fin 15) : ScalingKind :=
  match i.val with
  | 0 => .busVoltage
  | 1 => .busCurrent
  | 2 => .temperature
  | _ => .rail

/-- The rail an input measures: input 3 + rail number (R88). Meaningful for inputs 3 to 14. -/
def inputRail (i : Fin 15) : Rail := ⟨i.val - 3, by omega⟩

/-- The scaled value of a code (R91), with the fullscale_mV in force for a rail input. -/
def scaledValue (i : Fin 15) (fullscaleMV code : Nat) : Int :=
  match scalingKind i with
  | .busVoltage => (code * 10 : Nat)
  | .busCurrent => (code * 2 : Nat)
  | .temperature => ((code * 1650 / 4096 : Nat) : Int) - 400
  | .rail => (code * fullscaleMV / 4096 : Nat)

/-- The scaled value of a code of an input with the scaling in force. -/
def State.scale (s : State) (i : Fin 15) (code : Nat) : Int :=
  scaledValue i (s.railCfg (inputRail i)).fullscaleMV code

/-- A clipped conversion (R88). -/
def isClipped (code : Nat) : Bool := decide (code = 0) || decide (code = 4095)

/-- A record after a completed conversion (R92). -/
def ChanRec.update (c : ChanRec) (code : Nat) (scaled : Int) : ChanRec :=
  { code := code, scaled := scaled, clipped := isClipped code,
    minCode := if code < c.minCode then code else c.minCode
    maxCode := if c.maxCode < code then code else c.maxCode
    count := satInc 65535 c.count
    clips := if isClipped code then satInc 255 c.clips else c.clips }

/-- A record with its statistics reset (R96). -/
def ChanRec.resetStats (c : ChanRec) : ChanRec := { c with minCode := 4095, maxCode := 0, count := 0, clips := 0 }

/-- The record of an input is updated at a completion (R92). -/
def Ev.recordCode (e : Ev) (i : Fin 15) (code : Nat) : Ev :=
  { e with scan.records := e.scan.records.set i ((e.scan.records[i]).update code (e.scale i code)) }

/-- The round-robin pointer's next value: from 14 back to 2 (R90). -/
def nextPointer (p : Fin 15) : Fin 15 := if h : p.val < 14 then ⟨p.val + 1, by omega⟩ else 2

/-- A period begins: the timer restarts at the Ts in force and the bus voltage conversion starts (R89, R97). -/
def Ev.beginPeriod (e : Ev) : Ev :=
  { e with scan.tsUs := e.cfg.system.tsUs, scan.timer := some (e.now + e.cfg.system.tsUs),
           scan.conv := some .busVoltage, scan.vb := none }

end Sys2Proof.Machine
end

