-- ==== Sys2Proof/Machine/Conversions.lean ====
section
/-! DEFINITION. The commands of the Measurement Scanner (chapter 5) and what the consumers do with a completion. A
completion is taken only while that conversion is in progress (log 4). -/

namespace Sys2Proof.Machine

/-- PERIOD_TIMER_EXPIRY (R89). -/
def execPeriodTimerExpiry : State → Host.Outcome State Fault Refusal :=
  runEvent fun e => if e.scan.timer.isSome then e.beginPeriod else e

/-- BUS_VOLTAGE_CONVERSION (R92, R93): record 0, the code held for the period, the bus current conversion starts. -/
def execBusVoltageConversion (code : Code) : State → Host.Outcome State Fault Refusal :=
  runEvent fun e =>
    if e.scan.conv = some .busVoltage then
      let e1 := e.recordCode 0 code.toNat
      { e1 with scan.vb := some code.toNat, scan.conv := some .busCurrent }
    else e

/-- One budget evaluation and its two consumers, ride-through before the limit (R93, R100, R105, log 12). -/
def Ev.evaluationEvent (e : Ev) (vb ib : Nat) : Ev :=
  (((e.evaluation vb ib).rideEvaluation vb).settle).limitEvaluation ib

/-- BUS_CURRENT_CONVERSION (R92, R93): record 1, the evaluation, the third conversion starts. DESIGN CHOICE (log 36): the
bus voltage code held for the period is dropped here, with its use; R93 does not say how long it stays held. -/
def execBusCurrentConversion (code : Code) : State → Host.Outcome State Fault Refusal :=
  runEvent fun e =>
    if e.scan.conv = some .busCurrent then
      let e1 : Ev := { e.recordCode 1 code.toNat with scan.conv := some .slow, scan.vb := none }
      match e.scan.vb with
      | some vb => e1.evaluationEvent vb code.toNat
      | none => e1
    else e

/-- A conversion of a used rail with monitor WINDOW or BOTH is judged by the rail's state (R25). The conversion that
brings the rail ON is also the first one its window detector judges (R27). -/
def Ev.judgeConversion (e : Ev) (r : Rail) (mv : Nat) : Ev :=
  match e.rails[r].state with
  | .ramping =>
    let e1 := (e.rampConversion r mv).settle
    if e1.rails[r].state = .on then (e1.judgeWindow r mv).settle else e1
  | .on => (e.judgeWindow r mv).settle
  | .draining => (e.drainConversion r mv).settle
  | .off | .shed | .retryWait | .faulted => e

/-- A rail input's completion (R25, R94): last mV is written whatever the rail's state. -/
def Ev.railConversion (e : Ev) (r : Rail) (mv : Nat) : Ev :=
  let e1 := e.setRail r fun x => { x with lastMV := mv }
  if (e.railCfg r).used && (e.railCfg r).monitor.readsWindow then e1.judgeConversion r mv else e1

/-- The third conversion's completion is handed to the input's consumer (R94). -/
def Ev.slowCompletion (e : Ev) (i : Fin 15) (scaled : Int) : Ev :=
  match scalingKind i with
  | .temperature => e.thermalCompletion scaled
  | .rail => e.railConversion (inputRail i) scaled.toNat
  | .busVoltage | .busCurrent => e

/-- SLOW_CONVERSION (R92, R94): the pointer's record, the pointer, the consumer. -/
def execSlowConversion (code : Code) : State → Host.Outcome State Fault Refusal :=
  runEvent fun e =>
    if e.scan.conv = some .slow then
      let i := e.scan.pointer
      let e1 : Ev := { e.recordCode i code.toNat with scan.conv := none, scan.pointer := nextPointer i }
      e1.slowCompletion i (e.scale i code.toNat)
    else e

end Sys2Proof.Machine
end

