-- ==== Sys2Proof/Machine/Inputs.lean ====
section
/-! DEFINITION. The commands of the wake lines and the key hold (section 1.6), of the power-good pins (R24) and of the
LOCK pin (R78). AC_OK stands in Machine/RideEvents.lean. -/

namespace Sys2Proof.Machine

/-! ### Wake lines and key hold -/

/-- The key-hold timer hears of WAKE_KEY (R14): an assertion may start it, a release returns it to IDLE. -/
def Ev.keyHoldKey (e : Ev) (asserted : Bool) : Ev :=
  if asserted then e.keyHoldLook else { e with keyHold := .idle }

/-- A change of a wake line (R12, R14). -/
def Ev.wakeChange (e : Ev) (w : WakeLine) (asserted : Bool) : Ev :=
  let e1 := { e with pins.wake := e.pins.wake.set (wakeIdx w) asserted }.wakeLine w asserted
  match w with
  | .key => e1.keyHoldKey asserted
  | .ir | .aux => e1

/-- The wake a qualifier produces is judged (R13). -/
def Ev.judgeWake (e : Ev) (w : WakeLine) : Ev :=
  if e.wakeEffective then { e with retArmed := false }.writeTarget (e.cfg.wake w).target else e

/-- A qualify time expires: HELD, and the wake is judged (R12, R13). -/
def Ev.wakeExpiry (e : Ev) (w : WakeLine) : Ev :=
  match e.wakeQ[wakeIdx w] with
  | .qualifying _ => ((e.setWakeQ w .held).judgeWake w).settle
  | .idle | .held => e

/-- The key hold acts (R14): target, return, shutdown record, snap requests. -/
def Ev.keyHoldAct (e : Ev) : Ev :=
  let e1 : Ev := { (e.writeTarget .standby).reportTarget with retArmed := false }
  let e2 := if e1.snapInHand then e1 else e1.openShutdown .keyHold 0
  (e2.snapBoth .keyHold).takeSnaps

/-- The key-hold time expires (R14). -/
def Ev.keyHoldFires (e : Ev) : Ev :=
  let e1 : Ev := { e with keyHold := .fired }
  if e.ride.state = .committed then e1 else e1.keyHoldAct

/-- WAKE_LINE_CHANGE. A level the line already has is no change (log 3). -/
def execWakeLineChange (w : WakeLine) (asserted : Bool) : State → Host.Outcome State Fault Refusal :=
  runEvent fun e => if asserted = e.pins.wake[wakeIdx w] then e else e.wakeChange w asserted

/-- WAKE_QUALIFY_EXPIRY (R13). -/
def execWakeQualifyExpiry (w : WakeLine) : State → Host.Outcome State Fault Refusal :=
  runEvent fun e => e.wakeExpiry w

/-- KEY_HOLD_EXPIRY (R14). -/
def execKeyHoldExpiry : State → Host.Outcome State Fault Refusal :=
  runEvent fun e =>
    match e.keyHold with
    | .timing _ => e.keyHoldFires.settle
    | .idle | .fired => e

/-! ### Power-good pins -/

/-- PG_PIN_CHANGE (R24). A level the pin already has is no change (log 3). -/
def execPgPinChange (r : Rail) (high : Bool) : State → Host.Outcome State Fault Refusal :=
  runEvent fun e =>
    if high = e.pins.pg[r] then e else ({ e with pins.pg := e.pins.pg.set r high } : Ev).pgLook r

/-- PG_DEGLITCH_EXPIRY (R24): pg level takes the pin's level. -/
def execPgDeglitchExpiry (r : Rail) : State → Host.Outcome State Fault Refusal :=
  runEvent fun e =>
    if e.rails[r].pgTimer.isSome then (e.pgQualified r (Level.ofBool e.pins.pg[r])).settle else e

/-! ### The LOCK pin -/

/-- A waiting AWAIT_LOCK step completes when the qualified level is asserted (R55). -/
def Ev.lockStep (e : Ev) : Ev :=
  match e.waitOf with
  | .lock _ => if e.lockLevel then e.answer (.completed .none) else e
  | .nothing | .railOn _ | .railOff _ | .time _ | .handshake _ => e

/-- The qualified LOCK level takes the pin's level, and its users act (R78). -/
def Ev.lockQualified (e : Ev) : Ev :=
  ({ e with lockLevel := e.pins.lock, lockTimer := none }.lockStep).superviseLock

/-- LOCK_PIN_CHANGE (R78). A level the pin already has is no change (log 3). -/
def execLockPinChange (high : Bool) : State → Host.Outcome State Fault Refusal :=
  runEvent fun e => if high = e.pins.lock then e else ({ e with pins.lock := high } : Ev).lockLook

/-- LOCK_DEGLITCH_EXPIRY (R78). -/
def execLockDeglitchExpiry : State → Host.Outcome State Fault Refusal :=
  runEvent fun e => if e.lockTimer.isSome then e.lockQualified.settle else e

end Sys2Proof.Machine
end

