-- ==== Sys2Proof/Machine/Operands.lean ====
section
/-! DEFINITION. The operand forms of the link (R173, R174, R177): numbers, named values, entry addresses, and the field
groups of the working tables, read from a request's body and written into a reply. -/

namespace Sys2Proof.Machine

/-! ### Numbers (R177) -/

/-- A number with range up to 255: one byte. -/
def byte1 (n : Nat) : List Byte := [BitVec.ofNat 8 n]

/-- A number with a larger range: two bytes, the most significant first. -/
def byte2 (n : Nat) : List Byte := [BitVec.ofNat 8 (n / 256), BitVec.ofNat 8 n]

/-- P_meas, P_now and the reserve parts: four bytes (the parts' fifth stands in Machine/Formats.lean). -/
def byte4 (n : Nat) : List Byte := byte2 (n / 65536) ++ byte2 n

/-- Two bytes read as a number. -/
def num2 (hi lo : Byte) : Nat := hi.toNat * 256 + lo.toNat

/-- A signed quantity in two bytes, two's complement (R177). -/
def signed2 (n : Int) : List Byte := byte2 (n % 65536).toNat

/-- H in two bytes, clamped to −32,768..32,767 (R177). -/
def headroom2 (h : Int) : List Byte := signed2 (max (-32768) (min 32767 h))

/-- A flag the layouts show as (0, 1). -/
def flag (b : Bool) : List Byte := [if b then 1 else 0]

/-! ### Named values: the position in the defining list (R177, log 14) -/

/-- The byte of a named value: its position in the list. -/
def codeIn {α : Type} [DecidableEq α] (l : List α) (x : α) : Byte := BitVec.ofNat 8 (l.idxOf x)

/-- The named value a byte stands for, if the list has that position. -/
def named {α : Type} (l : List α) (b : Byte) : Option α := l[b.toNat]?

/-- "None" is 0xFF. -/
def noneByte : Byte := 0xFF

/-- A named value that may be none. -/
def codeOrNone {α : Type} [DecidableEq α] (l : List α) (x : Option α) : Byte :=
  match x with
  | some a => codeIn l a
  | none => noneByte

def yesNo : List Bool := [true, false]
def noYes : List Bool := [false, true]
def onOff : List Bool := [true, false]
def levels : List Level := [.low, .high]
def sysStates : List SysState := [.starting, .unconfigured, .standby, .boardOn, .panelOn, .lockout]
def targets : List Target := [.standby, .boardOn, .panelOn]
def wakeTargets : List Target := [.boardOn, .panelOn]
def autoOnTargets : List Target := [.standby, .boardOn]
def monitors : List Monitor := [.pg, .window, .both]
def retryLimits : List RetryLimit := [.one, .three, .ten, .unlimited]
def faultModes : List FaultMode := [.latch, .retry, .report, .ignore]
def railActions : List RailAction := [.drop, .panel, .system, .lockout]
def homes : List Home := [.none, .board, .panel]
def railTiers : List (Fin 5) := [0, 1, 2, 3, 4]
def stepKinds : List StepKind := [.railOn, .railOff, .line, .wait, .awaitLock, .handshake]
def onMisses : List OnMiss := [.fail, .goOn]
def limitModes : List LimitMode := [.level, .count, .latch, .report, .off]

/-! ### Tier numbers: 1..4 on the link, index 0..3 in the model -/

/-- A tier's number as a byte. -/
def tierByte (t : Fin 4) : Byte := BitVec.ofNat 8 (t.val + 1)

/-- The tier a byte names. -/
def tierOfByte (b : Byte) : Option (Fin 4) :=
  match b.toNat with
  | 1 => some 0
  | 2 => some 1
  | 3 => some 2
  | 4 => some 3
  | _ => none

/-! ### Entry addresses (R173) -/

/-- A field group of the working tables. -/
inductive Group where
  | sense (r : Rail)
  | timing (r : Rail)
  | policy (r : Rail)
  | header (p : PlanId)
  /-- Step record n + 1 of a plan. -/
  | step (p : PlanId) (n : Fin 16)
  | tier (t : Fin 4)
  | line (l : LineId)
  | wake (w : WakeLine)
  | budget
  | ride
  | limit
  | thermal
  | lock
  | system
deriving DecidableEq, Repr

def lineList : List LineId := [.blEn, .blDim, .pnlRstN, .audMute, .sysRstN, .faultN, .gpoA, .gpoB]
def wakeList : List WakeLine := [.key, .ir, .aux]

/-- The rail a byte names. -/
def railOfByte (b : Byte) : Option Rail := if h : b.toNat < 12 then some ⟨b.toNat, h⟩ else none

/-- The field group of a RAIL entry. -/
def railGroup (r : Rail) (g : Byte) : Option Group :=
  match g.toNat with
  | 0 => some (.sense r)
  | 1 => some (.timing r)
  | 2 => some (.policy r)
  | _ => none

/-- The field group of a PLAN entry. -/
def planGroup (p : PlanId) (g : Byte) : Option Group :=
  if g.toNat = 0 then some (.header p)
  else if h : g.toNat - 1 < 16 then some (.step p ⟨g.toNat - 1, h⟩)
  else none

/-- The field group of the PARAM entry. -/
def paramGroup (g : Byte) : Option Group :=
  match g.toNat with
  | 0 => some .budget
  | 1 => some .ride
  | 2 => some .limit
  | 3 => some .thermal
  | 4 => some .lock
  | 5 => some .system
  | _ => none

/-- The entry that table, index and field group address (R173). -/
def address (table index group : Byte) : Option Group :=
  match table.toNat with
  | 0 => (railOfByte index).bind fun r => railGroup r group
  | 1 => (named allPlans index).bind fun p => planGroup p group
  | 2 => if group = 0 then (tierOfByte index).map .tier else none
  | 3 => if group = 0 then (named lineList index).map .line else none
  | 4 => if group = 0 then (named wakeList index).map .wake else none
  | 5 => if index = 0 then paramGroup group else none
  | _ => none

/-- The three address bytes of an entry (R173). -/
def Group.addressBytes : Group → List Byte
  | .sense r => [0, BitVec.ofNat 8 r.val, 0]
  | .timing r => [0, BitVec.ofNat 8 r.val, 1]
  | .policy r => [0, BitVec.ofNat 8 r.val, 2]
  | .header p => [1, codeIn allPlans p, 0]
  | .step p n => [1, codeIn allPlans p, BitVec.ofNat 8 (n.val + 1)]
  | .tier t => [2, tierByte t, 0]
  | .line l => [3, codeIn lineList l, 0]
  | .wake w => [4, codeIn wakeList w, 0]
  | .budget => [5, 0, 0]
  | .ride => [5, 0, 1]
  | .limit => [5, 0, 2]
  | .thermal => [5, 0, 3]
  | .lock => [5, 0, 4]
  | .system => [5, 0, 5]

/-! ### The fields of a group as bytes -/

/-- RAIL SENSE: 10 bytes. -/
def RailCfg.senseBytes (x : RailCfg) : List Byte :=
  [codeIn yesNo x.used, codeIn monitors x.monitor] ++ byte2 x.lowMV ++ byte2 x.highMV ++ byte2 x.fullscaleMV
    ++ byte1 x.pgDeglitchMs ++ byte1 x.windowSamples

/-- RAIL TIMING: 11 bytes. -/
def RailCfg.timingBytes (x : RailCfg) : List Byte :=
  byte2 x.rampMs ++ byte1 x.ladder ++ byte2 x.drainMV ++ byte2 x.drainMs ++ [codeIn yesNo x.bleed]
    ++ byte2 x.retryMs ++ [codeIn retryLimits x.retryLimit]

/-- RAIL POLICY: 4 bytes. -/
def RailCfg.policyBytes (x : RailCfg) : List Byte :=
  [codeIn faultModes x.faultMode, codeIn railActions x.faultAction, codeIn homes x.home, codeIn railTiers x.tier]

/-- PLAN header: 2 bytes. -/
def PlanCfg.headerBytes (x : PlanCfg) : List Byte := byte1 x.stepCount ++ byte1 x.tailIndex

/-- A step record: 7 bytes. -/
def StepRec.bytes (x : StepRec) : List Byte :=
  [codeIn stepKinds x.kind] ++ byte1 x.target ++ byte2 x.value ++ [codeIn onMisses x.onMiss] ++ byte2 x.weightMW

/-- A tier's line members: 16 bytes, a pair for each line in the order of R71. -/
def tierBytes (x : Vector TierLine 8) : List Byte :=
  x.toList.flatMap fun m => [codeIn yesNo m.member, codeIn levels m.shedLevel]

/-- A line: 3 bytes. -/
def LineCfg.bytes (x : LineCfg) : List Byte :=
  [codeIn levels x.safe, codeIn yesNo x.darkMember, codeIn levels x.dark]

/-- A wake line: 3 bytes. -/
def WakeCfg.bytes (x : WakeCfg) : List Byte := byte2 x.qualifyMs ++ [codeIn wakeTargets x.target]

/-- PARAM BUDGET: 8 bytes. -/
def BudgetCfg.bytes (x : BudgetCfg) : List Byte := byte2 x.busCap ++ byte2 x.floor ++ byte2 x.pFloor ++ byte2 x.guardMJ

/-- PARAM RIDE: 22 bytes. -/
def RideCfg.bytes (x : RideCfg) : List Byte :=
  byte2 x.dipLevel ++ byte2 x.restoreLevel ++ byte1 x.qualifyMs ++ byte2 x.settleMs ++ byte2 x.restoreIntervalMs
    ++ byte2 x.rideLimitMs ++ byte2 x.restMs ++ [codeIn onOff x.autoReturn] ++ byte2 x.thresholds[0]
    ++ byte2 x.thresholds[1] ++ byte2 x.thresholds[2] ++ byte2 x.thresholds[3]

/-- PARAM LIMIT: 10 bytes. -/
def LimitCfg.bytes (x : LimitCfg) : List Byte :=
  byte2 x.softCode ++ byte2 x.hardCode ++ byte1 x.samples ++ [tierByte x.tier, codeIn limitModes x.mode]
    ++ byte2 x.releaseCode ++ byte1 x.countM

/-- PARAM THERMAL: 6 bytes. -/
def ThermalCfg.bytes (x : ThermalCfg) : List Byte :=
  byte2 x.warn ++ byte2 x.shutdown ++ byte1 x.hyst ++ [tierByte x.tier]

/-- PARAM LOCK: 3 bytes. -/
def LockCfg.bytes (x : LockCfg) : List Byte := byte1 x.deglitchMs ++ byte2 x.graceMs

/-- PARAM SYSTEM: 9 bytes. -/
def SystemCfg.bytes (x : SystemCfg) : List Byte :=
  byte2 x.keyHoldMs ++ byte2 x.pulseMs ++ byte2 x.tsUs ++ [codeIn autoOnTargets x.autoOn] ++ byte2 x.revision

/-- The fields of the addressed group, in the order of R173 or of the owning rule's table. -/
def Tables.fields (t : Tables) : Group → List Byte
  | .sense r => t.rails[r].senseBytes
  | .timing r => t.rails[r].timingBytes
  | .policy r => t.rails[r].policyBytes
  | .header p => (t.plan p).headerBytes
  | .step p n => (t.plan p).steps[n].bytes
  | .tier k => tierBytes t.tiers[k]
  | .line l => (t.line l).bytes
  | .wake w => (t.wake w).bytes
  | .budget => t.budget.bytes
  | .ride => t.ride.bytes
  | .limit => t.limit.bytes
  | .thermal => t.thermal.bytes
  | .lock => t.lock.bytes
  | .system => t.system.bytes

/-! ### The fields of a group read from a request (R174) -/

/-- RAIL SENSE written into a record. -/
def RailCfg.ofSense (x : RailCfg) : List Byte → Option RailCfg
  | [u, m, l1, l0, h1, h0, f1, f0, d, w] => do
    let used ← named yesNo u
    let monitor ← named monitors m
    pure { x with used := used, monitor := monitor, lowMV := num2 l1 l0, highMV := num2 h1 h0,
                  fullscaleMV := num2 f1 f0, pgDeglitchMs := d.toNat, windowSamples := w.toNat }
  | _ => none

/-- RAIL TIMING written into a record. -/
def RailCfg.ofTiming (x : RailCfg) : List Byte → Option RailCfg
  | [r1, r0, l, v1, v0, d1, d0, b, t1, t0, k] => do
    let bleed ← named yesNo b
    let limit ← named retryLimits k
    pure { x with rampMs := num2 r1 r0, ladder := l.toNat, drainMV := num2 v1 v0, drainMs := num2 d1 d0,
                  bleed := bleed, retryMs := num2 t1 t0, retryLimit := limit }
  | _ => none

/-- RAIL POLICY written into a record. -/
def RailCfg.ofPolicy (x : RailCfg) : List Byte → Option RailCfg
  | [m, a, h, t] => do
    let mode ← named faultModes m
    let action ← named railActions a
    let home ← named homes h
    let tier ← named railTiers t
    pure { x with faultMode := mode, faultAction := action, home := home, tier := tier }
  | _ => none

/-- PLAN header written into a plan. -/
def PlanCfg.ofHeader (x : PlanCfg) : List Byte → Option PlanCfg
  | [n, t] =>
    if hn : n.toNat < 17 then
      if ht : t.toNat < 17 then some { x with stepCount := ⟨n.toNat, hn⟩, tailIndex := ⟨t.toNat, ht⟩ } else none
    else none
  | _ => none

/-- A step record. -/
def StepRec.ofBytes : List Byte → Option StepRec
  | [k, t, v1, v0, m, w1, w0] => do
    let kind ← named stepKinds k
    let onMiss ← named onMisses m
    pure { kind := kind, target := t.toNat, value := num2 v1 v0, onMiss := onMiss, weightMW := num2 w1 w0 }
  | _ => none

/-- One line's membership of a tier. -/
def tierLineOf (m l : Byte) : Option TierLine := do
  let member ← named yesNo m
  let level ← named levels l
  pure { member := member, shedLevel := level }

/-- A tier's line members. -/
def tierOfBytes : List Byte → Option (Vector TierLine 8)
  | [m0, l0, m1, l1, m2, l2, m3, l3, m4, l4, m5, l5, m6, l6, m7, l7] => do
    let a0 ← tierLineOf m0 l0
    let a1 ← tierLineOf m1 l1
    let a2 ← tierLineOf m2 l2
    let a3 ← tierLineOf m3 l3
    let a4 ← tierLineOf m4 l4
    let a5 ← tierLineOf m5 l5
    let a6 ← tierLineOf m6 l6
    let a7 ← tierLineOf m7 l7
    pure #v[a0, a1, a2, a3, a4, a5, a6, a7]
  | _ => none

/-- A line. -/
def LineCfg.ofBytes : List Byte → Option LineCfg
  | [s, m, d] => do
    let safe ← named levels s
    let member ← named yesNo m
    let dark ← named levels d
    pure { safe := safe, darkMember := member, dark := dark }
  | _ => none

/-- A wake line. -/
def WakeCfg.ofBytes : List Byte → Option WakeCfg
  | [q1, q0, t] => do
    let target ← named wakeTargets t
    pure { qualifyMs := num2 q1 q0, target := target }
  | _ => none

/-- PARAM BUDGET. -/
def BudgetCfg.ofBytes : List Byte → Option BudgetCfg
  | [c1, c0, f1, f0, p1, p0, g1, g0] =>
    some { busCap := num2 c1 c0, floor := num2 f1 f0, pFloor := num2 p1 p0, guardMJ := num2 g1 g0 }
  | _ => none

/-- PARAM RIDE. -/
def RideCfg.ofBytes : List Byte → Option RideCfg
  | [d1, d0, r1, r0, q, s1, s0, i1, i0, l1, l0, e1, e0, a, t11, t10, t21, t20, t31, t30, t41, t40] => do
    let auto ← named onOff a
    pure { dipLevel := num2 d1 d0, restoreLevel := num2 r1 r0, qualifyMs := q.toNat, settleMs := num2 s1 s0,
           restoreIntervalMs := num2 i1 i0, rideLimitMs := num2 l1 l0, restMs := num2 e1 e0, autoReturn := auto,
           thresholds := #v[num2 t11 t10, num2 t21 t20, num2 t31 t30, num2 t41 t40] }
  | _ => none

/-- PARAM LIMIT. -/
def LimitCfg.ofBytes : List Byte → Option LimitCfg
  | [s1, s0, h1, h0, n, t, m, r1, r0, k] => do
    let tier ← tierOfByte t
    let mode ← named limitModes m
    pure { softCode := num2 s1 s0, hardCode := num2 h1 h0, samples := n.toNat, tier := tier, mode := mode,
           releaseCode := num2 r1 r0, countM := k.toNat }
  | _ => none

/-- PARAM THERMAL. -/
def ThermalCfg.ofBytes : List Byte → Option ThermalCfg
  | [w1, w0, s1, s0, h, t] => do
    let tier ← tierOfByte t
    pure { warn := num2 w1 w0, shutdown := num2 s1 s0, hyst := h.toNat, tier := tier }
  | _ => none

/-- PARAM LOCK. -/
def LockCfg.ofBytes : List Byte → Option LockCfg
  | [d, g1, g0] => some { deglitchMs := d.toNat, graceMs := num2 g1 g0 }
  | _ => none

/-- PARAM SYSTEM. -/
def SystemCfg.ofBytes : List Byte → Option SystemCfg
  | [k1, k0, p1, p0, t1, t0, a, r1, r0] => do
    let auto ← named autoOnTargets a
    pure { keyHoldMs := num2 k1 k0, pulseMs := num2 p1 p0, tsUs := num2 t1 t0, autoOn := auto, revision := num2 r1 r0 }
  | _ => none

/-- A value that must meet its ranges and rules between fields. -/
def checked {α : Type} (ok : α → Bool) (x : Option α) : Option α := x.bind fun a => if ok a then some a else none

/-- The tables with a rail's record, a plan's, a tier's, a line's, a wake line's entry replaced. -/
def Tables.setRail (t : Tables) (r : Rail) (x : RailCfg) : Tables := { t with rails := t.rails.set r x }
def Tables.setPlan (t : Tables) (p : PlanId) (x : PlanCfg) : Tables := { t with plans := t.plans.set p.idx x }
def Tables.setTier (t : Tables) (k : Fin 4) (x : Vector TierLine 8) : Tables := { t with tiers := t.tiers.set k x }
def Tables.setLine (t : Tables) (l : LineId) (x : LineCfg) : Tables := { t with lines := t.lines.set l.idx x }
def Tables.setWake (t : Tables) (w : WakeLine) (x : WakeCfg) : Tables := { t with wakes := t.wakes.set (wakeIdx w) x }

/-- The working tables after an edit of the addressed group, or none where the body's length is not that of the group,
a field is out of its range, a rule between fields is broken or a field names FAULT_N (R174). -/
def Tables.edited (t : Tables) (g : Group) (body : List Byte) : Option Tables :=
  match g with
  | .sense r => (checked RailCfg.ok (t.rails[r].ofSense body)).map (t.setRail r)
  | .timing r => (checked RailCfg.ok (t.rails[r].ofTiming body)).map (t.setRail r)
  | .policy r => (checked RailCfg.ok (t.rails[r].ofPolicy body)).map (t.setRail r)
  | .header p => (checked PlanCfg.headerOk ((t.plan p).ofHeader body)).map (t.setPlan p)
  | .step p n =>
    (checked (StepRec.ok p) (StepRec.ofBytes body)).map fun x =>
      t.setPlan p { t.plan p with steps := (t.plan p).steps.set n x }
  | .tier k => (checked tierOk (tierOfBytes body)).map (t.setTier k)
  | .line l => if l = .faultN then none else (LineCfg.ofBytes body).map (t.setLine l)
  | .wake w => (checked WakeCfg.ok (WakeCfg.ofBytes body)).map (t.setWake w)
  | .budget => (checked BudgetCfg.ok (BudgetCfg.ofBytes body)).map fun x => { t with budget := x }
  | .ride => (checked RideCfg.ok (RideCfg.ofBytes body)).map fun x => { t with ride := x }
  | .limit => (checked LimitCfg.ok (LimitCfg.ofBytes body)).map fun x => { t with limit := x }
  | .thermal => (checked ThermalCfg.ok (ThermalCfg.ofBytes body)).map fun x => { t with thermal := x }
  | .lock => (checked LockCfg.ok (LockCfg.ofBytes body)).map fun x => { t with lock := x }
  | .system => (checked SystemCfg.ok (SystemCfg.ofBytes body)).map fun x => { t with system := x }

/-- Every group in the order of the table of R173: the order in which the image is written (log 9). -/
def allGroups : List Group :=
  (List.finRange 12).flatMap (fun r => [.sense r, .timing r, .policy r])
    ++ allPlans.flatMap (fun p => .header p :: (List.finRange 16).map (.step p))
    ++ (List.finRange 4).map .tier ++ lineList.map .line ++ wakeList.map .wake
    ++ [.budget, .ride, .limit, .thermal, .lock, .system]

/-- The working tables as a string of bytes (R175, log 9). -/
def Tables.serial (t : Tables) : List Byte := allGroups.flatMap t.fields

end Sys2Proof.Machine
end

