-- ==== Sys2Proof/Machine/Startup.lean ====
section
/-! DEFINITION. The resets, start-up and the completions of a STORE (sections 1.7, 11.2, 11.3). The request STORE stands
in Machine/Edits.lean. -/

namespace Sys2Proof.Machine

/-! ### The CRC-16 of the image (R175) -/

/-- One shift of the CRC-16 register: x¹⁶ + x¹² + x⁵ + 1. -/
def crc16Shift (v : BitVec 16) : BitVec 16 := if v.msb then (v <<< 1) ^^^ 0x1021 else v <<< 1

/-- One byte of the CRC-16, most significant bit first. -/
def crc16Byte (v : BitVec 16) (b : Byte) : BitVec 16 :=
  crc16Shift (crc16Shift (crc16Shift (crc16Shift (crc16Shift (crc16Shift (crc16Shift (crc16Shift
    (v ^^^ (b.zeroExtend 16 <<< 8)))))))))

/-- The CRC-16 of a string of bytes, from 0xFFFF (R175). -/
def crc16 (l : List Byte) : BitVec 16 := l.foldl crc16Byte 0xFFFF

/-- The image is good (R176). -/
def Image.good (i : Image) : Bool := i.valid && decide (crc16 i.tables.serial = i.crc) && i.tables.ok

/-- The image as a STORE leaves it until its completion: the working tables, not marked valid (R175, log 10). -/
def Image.written (t : Tables) : Image := { valid := false, tables := t, crc := crc16 t.serial }

/-! ### The end of start-up -/

/-- Each wake qualifier begins to watch its line (R12, R16). -/
def Ev.wakeWatchAll (e : Ev) : Ev := ((e.wakeWatch .key).wakeWatch .ir).wakeWatch .aux

/-- The end of start-up with the working tables filled (R16), and the move from UNCONFIGURED to STANDBY after a STORE
(R17): the reserve, the plan levels (R73), the state, the target, the qualifiers (R12, R24), the arbiter (R61). DESIGN CHOICE
(log 32): a LOCK qualification being timed keeps its deadline (R78). -/
def Ev.goLive (e : Ev) : Ev :=
  let e1 := (e.recomputeReserve.loadPlanLevels).setSys .standby
  let e2 := (e1.writeTarget e1.tables.system.autoOn).wakeWatchAll
  { allRails.foldl Ev.pgLook e2 with arb := true }

/-- A good load (R16, R176). -/
def Ev.goodLoad (e : Ev) : Ev :=
  { e with
    tables := e.store.image.tables
    store.checking := false
    store.revision := e.store.image.tables.system.revision }.goLive.settle

/-- A bad load (R16, R176). -/
def Ev.badLoad (e : Ev) : Ev :=
  ({ e with tables := blankTables, store.checking := false }.setSys .unconfigured).wakeWatchAll

/-- IMAGE_CHECK_COMPLETE (R16, R176): it has an effect only while a check is in progress. -/
def execImageCheckComplete : State → Host.Outcome State Fault Refusal :=
  runEvent fun e => if e.store.checking then (if e.store.image.good then e.goodLoad else e.badLoad) else e

/-! ### The resets -/

/-- POWER_ON_RESET (R15): the image, the pins and the model's clock and queue stand; RST_N is taken as released
(log 26). -/
def execPowerOnReset (s : State) : Host.Outcome State Fault Refusal :=
  .next (State.afterReset s.store.image { s.pins with inReset := false } s.now s.pending)

/-- The shutdown record after a pin reset (R127). -/
def ShutdownRec.pinReset (x : ShutdownRec) : ShutdownRec := { x with isOpen := false, resetSeenPin := true }

/-- PIN_RESET (R15): as a power-on reset, but the shutdown record is kept (R127), and the scanner and the image check
wait for the end of the reset (R89, R176). -/
def execPinReset (s : State) : Host.Outcome State Fault Refusal :=
  .next
    { State.afterReset s.store.image { s.pins with inReset := true } s.now s.pending with
      shutdown := s.shutdown.pinReset
      scan.timer := none
      scan.conv := none
      store.checking := false }

/-- END_OF_PIN_RESET (R89, R176): the first period begins and the image check starts. -/
def execEndOfPinReset (s : State) : Host.Outcome State Fault Refusal :=
  if s.pins.inReset then
    .next { s with pins.inReset := false, scan := Scanner.reset s.now, store.checking := true }
  else .next s

/-! ### The completions of a STORE (R175) -/

/-- The write ends: status, result, image mark, STORE_DONE. -/
def Ev.storeEnds (e : Ev) (ok : Bool) : Ev :=
  { e with
    store.writing := false
    store.lastResult := if ok then .ok else .failed
    store.image.valid := ok }.notice .storeDone (.storeDone ok)

/-- A verified write (R175, R17, R166). -/
def Ev.storeVerified (e : Ev) : Ev :=
  let e1 := { e with store.revision := e.store.image.tables.system.revision }.storeEnds true
  if e1.sys = .unconfigured then e1.goLive.settle else e1

/-- STORE_VERIFIED: it has an effect only while a write is in progress. -/
def execStoreVerified : State → Host.Outcome State Fault Refusal :=
  runEvent fun e => if e.store.writing then e.storeVerified else e

/-- STORE_NOT_VERIFIED: it has an effect only while a write is in progress. -/
def execStoreNotVerified : State → Host.Outcome State Fault Refusal :=
  runEvent fun e => if e.store.writing then e.storeEnds false else e

end Sys2Proof.Machine
end

