-- ==== Sys2Proof/Machine/Edits.lean ====
section
/-! DEFINITION. The checks of EDIT_CONFIG and STORE, and the effects of an accepted edit (R43, R107, R143, R146, R174,
R175). -/

namespace Sys2Proof.Machine

/-! ### The checks of R174 -/

/-- The addressed entry is the header or a step of a plan that is PENDING, RUNNING or in TAIL. -/
def State.planBusy (s : State) : Group → Bool
  | .header p | .step p _ => decide (s.planStatus p ≠ .idle)
  | .sense _ | .timing _ | .policy _ | .tier _ | .line _ | .wake _ | .budget | .ride | .limit | .thermal | .lock
  | .system => false

/-- A hard field changes (R43, R174). -/
def RailCfg.hardChange (old new : RailCfg) : Bool :=
  decide (old.used ≠ new.used) || decide (old.monitor ≠ new.monitor) || decide (old.fullscaleMV ≠ new.fullscaleMV)
    || decide (old.bleed ≠ new.bleed)

/-- The edit would change a hard field of a rail that is not OFF (R174). -/
def State.hardRefused (s : State) (g : Group) (new : Tables) : Bool :=
  match g with
  | .sense r | .timing r => s.tables.rails[r].hardChange new.rails[r] && decide (s.rails[r].state ≠ .off)
  | .policy _ | .header _ | .step _ _ | .tier _ | .line _ | .wake _ | .budget | .ride | .limit | .thermal | .lock
  | .system => false

/-- The status of an edit, with the tables it would leave: the checks of R174 in their order. -/
def State.editCheck (s : State) (g : Group) (body : List Byte) : Status × Tables :=
  match s.tables.edited g body with
  | none => (.badArgument, s.tables)
  | some new =>
    if s.ride.state ≠ .normal then (.locked, s.tables)
    else if s.store.writing || s.planBusy g then (.busy, s.tables)
    else if s.hardRefused g new then (.wrongState, s.tables)
    else (.ok, new)

/-! ### The effects of an accepted edit -/

/-- RAIL SENSE (R24, R43). -/
def Ev.senseEdited (e : Ev) (r : Rail) (old new : RailCfg) : Ev :=
  let e1 :=
    if old.lowMV ≠ new.lowMV ∨ old.highMV ≠ new.highMV ∨ old.windowSamples ≠ new.windowSamples then
      e.setRail r fun x => { x with oow := 0 }
    else e
  if old.used = new.used then e1 else if new.used then e1.pgLook r else e1.pgStop r

/-- A changed tier field (R43). -/
def Ev.railTierEdited (e : Ev) (r : Rail) : Ev :=
  match e.rails[r].state with
  | .on | .ramping => if e.railShed r then e.drainStart r .shed else e
  | .shed => if e.railShed r then e else e.rampStart r
  | .off | .draining | .retryWait | .faulted => e

/-- RAIL POLICY (R37, R43). -/
def Ev.policyEdited (e : Ev) (r : Rail) (old new : RailCfg) : Ev :=
  let e1 := if old.faultMode = .report ∧ new.faultMode ≠ .report then e.conditionEnded (srcRail r) else e
  if old.tier = new.tier then e1 else e1.railTierEdited r

/-- The effects the owning rules give the changed fields, in the order of their tables (R174, log 28). A line, a tier's
lines, Ts and the wake, ride and lock entries are read where they are used. -/
def Ev.editEffects (e : Ev) (g : Group) (old new : Tables) : Ev :=
  match g with
  | .sense r => e.senseEdited r old.rails[r] new.rails[r]
  | .timing _ => e.recomputeReserve
  | .policy r => e.policyEdited r old.rails[r] new.rails[r]
  | .header p | .step p _ => if p.isSnap then e.recomputeReserve else e
  | .budget => e.recomputeReserve
  | .limit => e.limitEdited old.limit new.limit
  | .thermal => if old.thermal.tier = new.thermal.tier then e else e.heatTierEdited new.thermal.tier
  | .tier _ | .line _ | .wake _ | .ride | .lock | .system => e

/-- An accepted edit writes the group and applies its effects; in UNCONFIGURED the effects wait for the move to STANDBY
(R17, R174). -/
def Ev.applyEdit (e : Ev) (g : Group) (new : Tables) : Ev :=
  let e1 : Ev := { e with tables := new }
  if e.sys = .unconfigured then e1 else (e1.editEffects g e.tables new).settle

/-! ### STORE -/

/-- The status of a STORE: the checks of R175 in their order. -/
def State.storeCheck (s : State) (body : List Byte) : Status :=
  if body ≠ [] then .badArgument
  else if s.ride.state ≠ .normal ∨ s.pins.acOk = false then .locked
  else if s.store.writing then .busy
  else .ok

/-- The write begins (R175). -/
def Ev.beginStore (e : Ev) : Ev := { e with store.writing := true, store.image := Image.written e.tables }

end Sys2Proof.Machine
end

