-- ==== Sys2Proof/Machine/Formats.lean ====
section
/-! DEFINITION. The byte layouts the host sees (section 11.5): readable records, runtime views, notices, reply frames. -/

namespace Sys2Proof.Machine

/-! ### The defining lists of the reported values (R177, log 14) -/

def railStates : List RailState := [.off, .ramping, .on, .draining, .shed, .retryWait, .faulted]
def dests : List Dest := [.off, .shed, .retryWait, .faulted, .ramp]
def planStatuses : List PlanStatus := [.idle, .pending, .running, .tail]
def planOutcomes : List PlanOutcome := [.none, .done, .failed, .aborted, .cut]
def causes : List Cause :=
  [.none, .unused, .latched, .rampTimeout, .drainLate, .lockTimeout, .held, .late, .targetChanged, .stateChanged,
   .powerLoss, .rideLimit, .keyHold, .fault, .overtemp, .planFailed, .planned, .hostRequest]
def scalingKinds : List ScalingKind := [.busVoltage, .busCurrent, .temperature, .rail]
def rideStates : List RideState := [.normal, .qualify, .riding, .restoring, .committed, .rest]
def limitStates : List LimitState := [.watch, .limiting, .noted, .latched]
def thermalStates : List ThermalState := [.cool, .warn, .hot]
def faultStates : List FaultState := [.clear, .active, .sticky, .latched]
def faultCauses : List FaultCause :=
  [.none, .undervolt, .overvolt, .pgLost, .rampTimeout, .drainTimeout, .softLimit, .hardLimit, .overtemp, .lockLost]
def faultActions : List FaultAction := [.none, .drop, .panel, .system, .lockout]
def shutCauses : List ShutCause := [.none, .hostRequest, .keyHold, .powerLoss, .rideLimit, .fault, .overtemp]
def hsOutcomes : List HsOutcome := [.none, .acked, .late, .skipped]
def lastPlans : List LastPlan := [.none, .boardDown, .boardSnap]
def storeResults : List StoreResult := [.none, .ok, .failed]
def statuses : List Status :=
  [.ok, .gated, .busy, .wrongState, .badArgument, .unknownKind, .locked, .notReady, .tooLate, .stillActive,
   .powerFail]
/-- Present, absent (R138, R148); asserted, deasserted (R78); set, clear (R148); open, closed (R144): the first is
true. -/
def firstTrue : List Bool := [true, false]

/-- A hold set: RIDE 0x01, LIMIT 0x02, HEAT 0x04, HOST 0x08 (R177). -/
def HoldSet.byte (h : HoldSet) : Byte :=
  BitVec.ofNat 8 ((if h.ride then 1 else 0) + (if h.limit then 2 else 0) + (if h.heat then 4 else 0)
    + (if h.host then 8 else 0))

/-- A set of tiers: bit k − 1 for tier k (R177). -/
def tierSetByte (x : Vector Bool 4) : Byte :=
  BitVec.ofNat 8 ((if x[0] then 1 else 0) + (if x[1] then 2 else 0) + (if x[2] then 4 else 0)
    + (if x[3] then 8 else 0))

/-- A tier number or none. -/
def tierOrNone (t : Option (Fin 4)) : Byte :=
  match t with
  | some k => tierByte k
  | none => noneByte

/-! ### Readable records (R177) -/

/-- IDENTIFY's condition: STARTING, UNCONFIGURED, READY (R166). -/
def conditionByte : SysState → Byte
  | .starting => 0
  | .unconfigured => 1
  | .standby | .boardOn | .panelOn | .lockout => 2

/-- The image revision IDENTIFY reports: 0 in STARTING and UNCONFIGURED (R166). -/
def State.reportedRevision (s : State) : Nat :=
  match s.sys with
  | .starting | .unconfigured => 0
  | .standby | .boardOn | .panelOn | .lockout => s.store.revision

/-- IDENTIFY: 5 bytes. -/
def State.identifyBody (s : State) : List Byte :=
  [0x48, 0x26] ++ byte2 s.reportedRevision ++ [conditionByte s.sys]

/-- A wake qualifier's state (R12). -/
def WakeQ.byte : WakeQ → Byte
  | .idle => 0
  | .qualifying _ => 1
  | .held => 2

/-- The key-hold timer's state (R14). -/
def KeyHold.byte : KeyHold → Byte
  | .idle => 0
  | .timing _ => 1
  | .fired => 2

/-- The running plan with its status and current step; 0xFF and two free values when none runs (R19, log 16). -/
def State.runBytes (s : State) : List Byte :=
  match s.run with
  | some run => [codeIn allPlans run.plan, codeIn planStatuses (s.planStatus run.plan)] ++ byte1 run.current
  | none => [noneByte, Config.statusOfNone s.now, Config.stepOfNone s.now]

/-- READ_STATE, in the order of R19; the return target is coded as a target, none as 0xFF (log 14). -/
def State.stateRecord (s : State) : List Byte :=
  [codeIn sysStates s.sys, codeIn targets s.target, codeOrNone targets s.retVal] ++ flag s.retArmed
    ++ [codeIn firstTrue s.gateOpen] ++ flag s.pins.acOk ++ flag (decide (s.ride.state = .normal)) ++ flag s.heatOpen
    ++ s.runBytes ++ [s.wakeQ[0].byte, s.wakeQ[1].byte, s.wakeQ[2].byte, s.keyHold.byte]

/-- The destination is meaningful only while DRAINING (R44). -/
def RailRt.destByte (x : RailRt) : Byte := if x.state = .draining then codeIn dests x.dest else noneByte

/-- The remaining time of a ramp attempt, a drain or a retry wait; a free value in the other states (R44, log 16). -/
def State.railRemaining (s : State) (r : Rail) : Nat :=
  match s.rails[r].state with
  | .ramping | .draining | .retryWait => s.remainingMs s.rails[r].timer
  | .off | .on | .shed | .faulted => (Config.remainingOfNone s.now r.val).toNat

/-- READ_RAIL: 15 bytes. -/
def State.railRecord (s : State) (r : Rail) : List Byte :=
  let x := s.rails[r]
  let k := s.tables.rails[r]
  [codeIn railStates x.state, x.destByte] ++ byte1 x.attempt ++ byte2 (s.railRemaining r) ++ byte1 x.retryCount
    ++ byte2 x.lastMV ++ [codeIn levels x.pgLevel] ++ byte1 x.oow
    ++ byte1 ((if x.winDetector then 1 else 0) + (if x.pgDetector then 2 else 0))
    ++ [codeIn yesNo k.used, codeIn monitors k.monitor, codeIn homes k.home, codeIn railTiers k.tier]

/-- READ_MEASURE: 21 bytes. DESIGN CHOICE (log 33): the Ts in force is that of the period in progress. -/
def State.measureRecord (s : State) (i : Fin 15) : List Byte :=
  let x := s.scan.records[i]
  byte1 i.val ++ [codeIn scalingKinds (scalingKind i)] ++ byte2 x.code ++ signed2 x.scaled ++ [codeIn yesNo x.clipped]
    ++ byte2 x.minCode ++ byte2 x.maxCode ++ signed2 (s.scale i x.minCode) ++ signed2 (s.scale i x.maxCode)
    ++ byte2 x.count ++ byte1 x.clips ++ byte2 s.scan.tsUs ++ byte1 s.scan.pointer.val

/-- READ_BUDGET: 34 bytes. -/
def State.budgetRecord (s : State) : List Byte :=
  let x := s.bud.record
  byte2 x.vb ++ byte2 x.ib ++ byte2 x.eAvail ++ byte4 x.pMeas ++ byte4 x.pNow ++ byte2 x.eReserve ++ headroom2 x.h
    ++ byte2 x.tCommit ++ byte2 x.count ++ byte2 s.bud.eReserve ++ [codeIn rideStates s.ride.state]
    ++ flag s.ride.settling ++ byte2 s.ride.stats.shortDips ++ byte2 s.ride.stats.rides
    ++ byte2 s.ride.stats.recoveries ++ byte2 s.ride.stats.commits

/-- The rail state of a rail's fault record, 0xFF for sources 12 to 14 (R158). -/
def State.sourceRailByte (s : State) (src : Fin 15) : Byte :=
  if h : src.val < 12 then codeIn railStates s.rails[src.val].state else noneByte

/-- READ_FAULT: 11 bytes. -/
def State.faultRecord (s : State) (src : Fin 15) : List Byte :=
  let f := s.faults[src]
  [codeIn faultStates f.state, codeIn firstTrue f.latch, codeIn firstTrue f.condition] ++ byte1 f.occurrences
    ++ [codeIn faultCauses f.firstCause] ++ byte2 f.firstValue
    ++ [codeOrNone sysStates f.firstState, codeIn faultCauses f.latestCause, codeIn faultActions f.action,
        s.sourceRailByte src]

/-- READ_SHUTDOWN: 14 bytes. -/
def ShutdownRec.bytes (x : ShutdownRec) : List Byte :=
  [codeIn firstTrue x.isOpen, codeIn shutCauses x.cause] ++ byte1 x.source ++ byte2 x.eAvail ++ headroom2 x.h
    ++ [tierSetByte x.tiersHeld] ++ byte2 x.rideMs ++ [codeIn hsOutcomes x.handshake, codeIn lastPlans x.lastPlan]
    ++ byte1 x.stepsDone ++ flag x.resetSeenPin

/-- READ_LINK: the four counts (R171). -/
def LinkCounts.bytes (x : LinkCounts) : List Byte := byte1 x.crc ++ byte1 x.gap ++ byte1 x.long ++ byte1 x.overrun

/-! ### Runtime views of READ_CONFIG (R173) -/

/-- A plan header's runtime record (R69). -/
def State.planView (s : State) (p : PlanId) : List Byte :=
  let x := s.plans[p.idx]
  [codeIn planStatuses (s.planStatus p)] ++ byte1 (s.currentStep p) ++ [codeIn planOutcomes x.lastOutcome]
    ++ byte1 x.outcomeStep ++ [codeIn causes x.outcomeCause] ++ flag x.merged ++ byte2 x.runCount

/-- The rail members of a tier as the working tables hold them (R136). -/
def State.tableMembers (s : State) (t : Fin 4) : List Rail :=
  allRails.filter fun r => decide (tierOf s.tables.rails[r].tier = some t)

/-- A tier's runtime view (R136): hold set, shed, shed count, and each rail member with its state. DESIGN CHOICE
(log 15): a pair of number and state for each member in ascending order, with no count before them. -/
def State.tierView (s : State) (t : Fin 4) : List Byte :=
  [s.tiers[t].holds.byte] ++ flag (s.tierShed t) ++ byte2 s.tiers[t].shedCount
    ++ (s.tableMembers t).flatMap fun r => [BitVec.ofNat 8 r.val, codeIn railStates s.rails[r].state]

/-- The source deciding a line's level: PULSE 0, DARK 1, SHED 2 with its tier, PLAN 3 (R75, log 15). -/
def LineSource.bytes : LineSource → List Byte
  | .pulse => [0, noneByte]
  | .dark => [1, noneByte]
  | .shed t => [2, tierByte t]
  | .plan => [3, noneByte]

/-- A line's runtime view (R75). -/
def State.lineView (s : State) (l : LineId) : List Byte :=
  [codeIn levels s.planLevels[l.idx], codeIn levels (s.driven l)] ++ (s.lineSource l).bytes

/-- A reserve part in µJ: five bytes hold sixteen products (R110, log 15). -/
def byte5 (n : Nat) : List Byte := byte1 (n / 4294967296) ++ byte4 n

/-- The budget entry's runtime view (R110). -/
def Budget.view (b : Budget) : List Byte := byte2 b.eReserve ++ byte5 b.partPanel ++ byte5 b.partBoard

/-- The limit entry's runtime view, in the order of R138. -/
def LimitRt.view (x : LimitRt) : List Byte :=
  [codeIn limitStates x.state] ++ byte1 x.softCount ++ byte1 x.releaseCount ++ [codeIn firstTrue x.softPresent]
    ++ byte1 x.hardCount ++ [codeIn firstTrue x.hardPresent, tierOrNone x.holdTier]

/-- The thermal entry's runtime view (R146). -/
def State.thermalView (s : State) : List Byte :=
  [codeIn thermalStates s.thermal.state, codeIn firstTrue s.heatOpen, tierOrNone s.thermal.holdTier]
    ++ signed2 s.scan.records[2].scaled

/-- A supervision state's position in R79. -/
def Supervision.byte : Supervision → Byte
  | .inactive => 0
  | .watching => 1
  | .grace _ => 2
  | .expired => 3

/-- The remaining grace time: in GRACE, 0 in the other states (R86). -/
def State.graceRemaining (s : State) : Nat :=
  match s.sup with
  | .grace d => s.remainingMs (some d)
  | .inactive | .watching | .expired => 0

/-- The lock entry's runtime view (R86). -/
def State.lockView (s : State) : List Byte :=
  [s.sup.byte, codeIn firstTrue s.lockLevel] ++ byte2 s.graceRemaining ++ byte2 s.watchMs

/-- The SYSTEM group's runtime view (R173): store status IDLE 0, WRITING 1, and the result of the last STORE. -/
def Store.view (x : Store) : List Byte := flag x.writing ++ [codeIn storeResults x.lastResult]

/-- The runtime view that the owning rule gives an entry (R173). -/
def State.view (s : State) : Group → List Byte
  | .header p => s.planView p
  | .tier t => s.tierView t
  | .line l => s.lineView l
  | .budget => s.bud.view
  | .limit => s.limit.view
  | .thermal => s.thermalView
  | .lock => s.lockView
  | .system => s.store.view
  | .sense _ | .timing _ | .policy _ | .step _ _ | .wake _ | .ride => []

/-- READ_CONFIG's reply body: the group's fields and the runtime view (R173). -/
def State.configRecord (s : State) (g : Group) : List Byte := s.tables.fields g ++ s.view g

/-! ### Notices (R177) -/

/-- A notice's kind and subject. -/
def NoticeKey.bytes : NoticeKey → List Byte
  | .state => [1, 0]
  | .planDone p => [2, codeIn allPlans p]
  | .fault src => [3, BitVec.ofNat 8 src.val]
  | .power => [4, 0]
  | .offPending => [5, 0]
  | .storeDone => [6, 0]

/-- A notice's content bytes. -/
def NoticeBody.bytes : NoticeBody → List Byte
  | .state s t running => [codeIn sysStates s, codeIn targets t, codeOrNone allPlans running]
  | .planDone o step cause merged => [codeIn planOutcomes o] ++ byte1 step ++ [codeIn causes cause] ++ flag merged
  | .fault s latest n => [codeIn faultStates s, codeIn faultCauses latest] ++ byte1 n
  | .power s settling holds tc h =>
    [codeIn rideStates s] ++ flag settling ++ [holds[0].byte, holds[1].byte, holds[2].byte, holds[3].byte]
      ++ byte2 tc ++ headroom2 h
  | .offPending ms cause => byte2 ms ++ [codeIn causes cause]
  | .storeDone ok => [if ok then 0 else 1]

/-- A string of bytes made `n` long with zeros. -/
def padTo (n : Nat) (l : List Byte) : List Byte := l ++ List.replicate (n - l.length) 0

/-- A notice: 12 bytes, unused content bytes 0. -/
def Notice.bytes (x : Notice) : List Byte := x.key.bytes ++ padTo 10 x.body.bytes

/-! ### Frames and their CRC-8 (R160, R161, R164) -/

/-- One shift of the CRC-8 register: x⁸ + x² + x + 1. -/
def crc8Shift (v : Byte) : Byte := if v.msb then (v <<< 1) ^^^ 0x07 else v <<< 1

/-- One byte of the CRC-8: combined by exclusive-or, then eight shifts. -/
def crc8Byte (v b : Byte) : Byte :=
  crc8Shift (crc8Shift (crc8Shift (crc8Shift (crc8Shift (crc8Shift (crc8Shift (crc8Shift (v ^^^ b))))))))

/-- The CRC-8 of a string of bytes, from 0x00 (R161). -/
def crc8 (l : List Byte) : Byte := l.foldl crc8Byte 0

/-- The start byte of every frame (R160). -/
def startByte : Byte := 0xC3

/-- A frame's bytes from LEN through the last body byte. -/
def frameCore (kind tag : Byte) (body : List Byte) : List Byte := [BitVec.ofNat 8 body.length, kind, tag] ++ body

/-- A whole frame: start byte, LEN, KIND, TAG, body, CRC-8. -/
def frameBytes (kind tag : Byte) (body : List Byte) : List Byte :=
  [startByte] ++ frameCore kind tag body ++ [crc8 (frameCore kind tag body)]

/-- The reply to a request (R164): KIND with its top bit set, TAG, and a body of STATUS, SUMMARY and the reply body. -/
def replyBytes (kind tag : Byte) (status : Status) (summary : Byte) (body : List Byte) : List Byte :=
  frameBytes (kind ||| 0x80) tag ([codeIn statuses status, summary] ++ body)

end Sys2Proof.Machine
end

