-- ==== Sys2Proof/Machine/Timers.lean ====
section
/-! DEFINITION. The commands that report a timer of a rail, of a step, of the reset pulse or of the grace time run
out. A report that finds its timer stopped changes nothing (log 3). The ride timers stand in Machine/RideEvents.lean. -/

namespace Sys2Proof.Machine

/-! ### Rails -/

/-- RAMP_DEADLINE_EXPIRY (R28, R29). -/
def execRampDeadlineExpiry (r : Rail) : State → Host.Outcome State Fault Refusal :=
  runEvent fun e => if e.rails[r].state = .ramping then (e.rampExpiry r).settle else e

/-- DRAIN_TIMEOUT (R32). -/
def execDrainTimeout (r : Rail) : State → Host.Outcome State Fault Refusal :=
  runEvent fun e => if e.rails[r].state = .draining then (e.drainExpiry r).settle else e

/-- RETRY_WAIT_EXPIRY (R36). -/
def execRetryWaitExpiry (r : Rail) : State → Host.Outcome State Fault Refusal :=
  runEvent fun e => if e.rails[r].state = .retryWait then (e.retryExpiry r).settle else e

/-! ### Steps -/

/-- WAIT_STEP_EXPIRY (R54). -/
def execWaitStepExpiry : State → Host.Outcome State Fault Refusal :=
  runEvent fun e =>
    match e.waitOf with
    | .time _ => (e.answer (.completed .none)).settle
    | .nothing | .railOn _ | .railOff _ | .lock _ | .handshake _ => e

/-- AWAIT_LOCK_DEADLINE_EXPIRY (R55). -/
def execAwaitLockDeadlineExpiry : State → Host.Outcome State Fault Refusal :=
  runEvent fun e =>
    match e.waitOf with
    | .lock _ => (e.answer (.missed .lockTimeout)).settle
    | .nothing | .railOn _ | .railOff _ | .time _ | .handshake _ => e

/-- A waiting handshake ends ACKED or LATE (R57): the memory, the notice, the slot, and the step's completion. -/
def Ev.endHandshake (e : Ev) (m : HsMemory) (o : HsOutcome) (note : Cause) : Ev :=
  match e.run with
  | some run => ((({ e with hsMemory := m }.withdraw .offPending).slotTakes run.plan o).answer (.completed note))
  | none => e

/-- HANDSHAKE_DEADLINE_EXPIRY (R57). -/
def execHandshakeDeadlineExpiry : State → Host.Outcome State Fault Refusal :=
  runEvent fun e => if e.handshakeWaits then (e.endHandshake .late .late .late).settle else e

/-! ### The reset pulse and the grace time -/

/-- RESET_PULSE_EXPIRY (R77). -/
def execResetPulseExpiry : State → Host.Outcome State Fault Refusal :=
  runEvent fun e =>
    match e.pulse with
    | .active _ => { e with pulse := .idle }
    | .idle | .armed => e

/-- GRACE_EXPIRY (R84). -/
def execGraceExpiry : State → Host.Outcome State Fault Refusal :=
  runEvent fun e =>
    match e.sup with
    | .grace _ => ({ e with sup := .expired }.writeTarget .boardOn).settle
    | .inactive | .watching | .expired => e

end Sys2Proof.Machine
end

