-- ==== Sys2Proof/Machine/Requests.lean ====
section
/-! DEFINITION. What each of the eighteen requests does when it is taken outside STARTING, or IDENTIFY in any state
(section 10.4 and the owning rules). A request's own checks stand in the order of its rule. -/

namespace Sys2Proof.Machine

/-- What a request's owner returns: the event after the request's effects, the status, the reply body (R163). -/
structure Served where
  ev : Ev
  status : Status
  body : List Byte

/-- A refused request: no effects, an empty body (R163). -/
def Ev.refuse (e : Ev) (st : Status) : Served := { ev := e, status := st, body := [] }

/-- A request that is answered OK with a body and changes nothing. -/
def Ev.tell (e : Ev) (body : List Byte) : Served := { ev := e, status := .ok, body := body }

/-- The one byte of a one-byte body. -/
def oneByte : List Byte → Option Byte
  | [b] => some b
  | _ => none

/-- IDENTIFY (R166). -/
def Ev.serveIdentify (e : Ev) (body : List Byte) : Served :=
  if body = [] then e.tell e.identifyBody else e.refuse .badArgument

/-- The GO is held: the ride state is REST, or R5 chooses an up plan and the gate is closed (R4). -/
def State.goGated (s : State) : Bool :=
  decide (s.ride.state = .rest) ||
    (match s.duePlan with
     | some p => p.isUp && !s.gateOpen
     | none => false)

/-- An accepted GO (R4). The status and the body are those right after the write (log 21). -/
def Ev.acceptGo (e : Ev) (t : Target) : Served :=
  let e1 := { e with retArmed := false }.writeTarget t
  { ev := e1.settle
    status := if e1.goGated then .gated else .ok
    body := [codeIn sysStates e1.sys, codeIn targets e1.target] }

/-- GO (R4). -/
def Ev.serveGo (e : Ev) (body : List Byte) : Served :=
  match (oneByte body).bind (named targets) with
  | none => e.refuse .badArgument
  | some t =>
    match e.sys with
    | .unconfigured | .lockout => e.refuse .wrongState
    | .starting | .standby | .boardOn | .panelOn =>
      if e.ride.state = .committed then e.refuse .powerFail else e.acceptGo t

/-- The count of a TAKE_NOTICES: an empty body means 4 (R169). -/
def takeCount : List Byte → Option Nat
  | [] => some 4
  | [n] => if 1 ≤ n.toNat ∧ n.toNat ≤ 4 then some n.toNat else none
  | _ => none

/-- TAKE_NOTICES (R169). -/
def Ev.serveTakeNotices (e : Ev) (body : List Byte) : Served :=
  match takeCount body with
  | none => e.refuse .badArgument
  | some n =>
    let taken := e.notices.take n
    { ev := { e with notices := e.notices.drop n }
      status := .ok
      body := byte1 taken.length ++ taken.flatMap Notice.bytes }

/-- ACK_OFF (R57, R167). -/
def Ev.serveAckOff (e : Ev) (body : List Byte) : Served :=
  if body ≠ [] then e.refuse .badArgument
  else if e.handshakeWaits then { ev := (e.endHandshake .acked .acked .none).settle, status := .ok, body := [] }
  else if e.hsMemory = .late then e.refuse .tooLate
  else e.refuse .wrongState

/-- READ_STATE (R19). -/
def Ev.serveReadState (e : Ev) (body : List Byte) : Served :=
  if body = [] then e.tell e.stateRecord else e.refuse .badArgument

/-- READ_RAIL (R44). -/
def Ev.serveReadRail (e : Ev) (body : List Byte) : Served :=
  match (oneByte body).bind railOfByte with
  | some r => e.tell (e.railRecord r)
  | none => e.refuse .badArgument

/-- An input 0..14 or a fault source 0..14. -/
def fin15OfByte (b : Byte) : Option (Fin 15) := if h : b.toNat < 15 then some ⟨b.toNat, h⟩ else none

/-- The arguments of READ_MEASURE (R95). -/
def measureArgs : List Byte → Option (Fin 15 × Bool)
  | [i, o] => do
    let input ← fin15OfByte i
    let option ← named noYes o
    pure (input, option)
  | _ => none

/-- READ_MEASURE (R95, R96). -/
def Ev.serveReadMeasure (e : Ev) (body : List Byte) : Served :=
  match measureArgs body with
  | none => e.refuse .badArgument
  | some (i, reset) =>
    { ev :=
        if reset then { e with scan.records := e.scan.records.set i (e.scan.records[i]).resetStats } else e
      status := .ok
      body := e.measureRecord i }

/-- READ_BUDGET (R108, R109). -/
def Ev.serveReadBudget (e : Ev) (body : List Byte) : Served :=
  match (oneByte body).bind (named noYes) with
  | none => e.refuse .badArgument
  | some clear =>
    { ev :=
        if clear then { e with ride.stats := { shortDips := 0, rides := 0, recoveries := 0, commits := 0 } } else e
      status := .ok
      body := e.budgetRecord }

/-- READ_FAULT (R158). -/
def Ev.serveReadFault (e : Ev) (body : List Byte) : Served :=
  match (oneByte body).bind fin15OfByte with
  | some src => e.tell (e.faultRecord src)
  | none => e.refuse .badArgument

/-! ### CLEAR_FAULT (R152, R153) -/

/-- What a CLEAR_FAULT names: a source, or ALL, coded 15 (log 14). -/
inductive ClearArg where
  | one (src : Fin 15)
  | all
deriving DecidableEq, Repr

/-- The argument of CLEAR_FAULT. -/
def clearArg (body : List Byte) : Option ClearArg :=
  (oneByte body).bind fun b => if b = 15 then some .all else (fin15OfByte b).map .one

/-- The rail clear of sources 0 to 11 (R152). -/
def Ev.clearRailOf (e : Ev) (src : Fin 15) : Ev := if h : src.val < 12 then e.railClear ⟨src.val, h⟩ else e

/-- The release of BUS_CURRENT is told to the limit, which ends its episode (R141, R153). -/
def Ev.releaseLimitOf (e : Ev) (src : Fin 15) : Ev := if src = srcBusCurrent then e.limitRelease else e

/-- The request acts on one record by its state (R152, R153). -/
def Ev.clearOne (e : Ev) (src : Fin 15) : Ev :=
  match e.faults[src].state with
  | .clear => e.clearRailOf src
  | .sticky => ((e.setFault src FaultRec.cleared).faultNotice src).clearRailOf src
  | .latched =>
    ((((e.releaseLimitOf src).setFault src FaultRec.released).faultNotice src)).clearRailOf src
  | .active => e

/-- The exit from LOCKOUT when no lockout latch remains (R11, R74, R157). -/
def Ev.lockoutExit (e : Ev) : Ev :=
  if e.sys = .lockout ∧ e.anyLockout = false then
    { (e.setSys .standby).setPlanLevel .faultN .high with arb := true }
  else e

/-- The records a CLEAR_FAULT of ALL will change: STICKY and LATCHED ones (R152). -/
def State.clearable (s : State) : Nat :=
  (allSources.filter fun i => decide (s.faults[i].state = .sticky) || decide (s.faults[i].state = .latched)).length

/-- The records that are ACTIVE. -/
def State.activeFaults (s : State) : Nat := (allSources.filter fun i => decide (s.faults[i].state = .active)).length

/-- CLEAR_FAULT (R152, R153). DESIGN CHOICE (log 31): a request naming ALL takes the records from source 0 to 14. -/
def Ev.serveClearFault (e : Ev) (body : List Byte) : Served :=
  match clearArg body with
  | none => e.refuse .badArgument
  | some (.one src) =>
    if e.faults[src].state = .active then e.refuse .stillActive
    else
      let e1 := ((e.clearOne src).lockoutExit).settle
      { ev := e1, status := .ok, body := [codeIn faultStates e1.faults[src].state] }
  | some .all =>
    let e1 := ((allSources.foldl Ev.clearOne e).lockoutExit).settle
    { ev := e1, status := .ok, body := byte1 e.clearable ++ byte1 e1.activeFaults }

/-- READ_SHUTDOWN (R130). -/
def Ev.serveReadShutdown (e : Ev) (body : List Byte) : Served :=
  if body = [] then e.tell e.shutdown.bytes else e.refuse .badArgument

/-- The arguments of SET_HOLD (R137). -/
def holdArgs : List Byte → Option (Fin 4 × Bool)
  | [t, v] => do
    let tier ← tierOfByte t
    let on ← named onOff v
    pure (tier, on)
  | _ => none

/-- SET_HOLD (R137). -/
def Ev.serveSetHold (e : Ev) (body : List Byte) : Served :=
  match holdArgs body with
  | none => e.refuse .badArgument
  | some (t, on) =>
    let e1 := (if on then e.placeHold .host t else e.removeHold .host t).settle
    { ev := e1, status := .ok, body := [e1.tiers[t].holds.byte] ++ flag (e1.tierShed t) }

/-- The service plan a RUN_SERVICE names: 6 or 7 (R65). -/
def serviceArg (body : List Byte) : Option PlanId :=
  (oneByte body).bind fun b => if b = 6 then some .panelCare else if b = 7 then some .user else none

/-- RUN_SERVICE (R65). -/
def Ev.serveRunService (e : Ev) (body : List Byte) : Served :=
  match serviceArg body with
  | none => e.refuse .badArgument
  | some p =>
    if e.allowsService p then
      match e.planStatus p with
      | .running | .tail => e.refuse .busy
      | .pending => { ev := e.setPlan p fun x => { x with merged := true }, status := .ok, body := [] }
      | .idle =>
        { ev := { e with reqs := e.reqs.put p (some .hostRequest), arb := true }.settle, status := .ok, body := [] }
    else e.refuse .wrongState

/-- RESET_BOARD may begin its pulse in this state (R76). -/
def State.resetAllowed (s : State) : Bool :=
  (decide (s.sys = .boardOn) || decide (s.sys = .panelOn)) && s.engineIdle

/-- RESET_BOARD (R76). -/
def Ev.serveResetBoard (e : Ev) (body : List Byte) : Served :=
  if body ≠ [] then e.refuse .badArgument
  else if e.pulse ≠ .idle then e.refuse .busy
  else if e.resetAllowed then { ev := { e with pulse := .armed }, status := .ok, body := [] }
  else e.refuse .wrongState

/-- The address of a READ_CONFIG (R173). -/
def readAddress : List Byte → Option Group
  | [t, i, g] => address t i g
  | _ => none

/-- READ_CONFIG (R173). -/
def Ev.serveReadConfig (e : Ev) (body : List Byte) : Served :=
  match readAddress body with
  | some g => e.tell (e.configRecord g)
  | none => e.refuse .badArgument

/-- The address and the field bytes of an EDIT_CONFIG (R174). -/
def editArgs : List Byte → Option (Group × List Byte)
  | t :: i :: g :: fields => (address t i g).map fun a => (a, fields)
  | _ => none

/-- EDIT_CONFIG (R174). -/
def Ev.serveEditConfig (e : Ev) (body : List Byte) : Served :=
  match editArgs body with
  | none => e.refuse .badArgument
  | some (g, fields) =>
    match e.editCheck g fields with
    | (.ok, new) =>
      let e1 := e.applyEdit g new
      { ev := e1, status := .ok, body := e1.configRecord g }
    | (st, _) => e.refuse st

/-- STORE (R175). -/
def Ev.serveStore (e : Ev) (body : List Byte) : Served :=
  if e.storeCheck body = .ok then { ev := e.beginStore, status := .ok, body := [] } else e.refuse (e.storeCheck body)

/-- READ_LINK (R171). -/
def Ev.serveReadLink (e : Ev) (body : List Byte) : Served :=
  if body = [] then
    { ev := { e with link.counts := { crc := 0, gap := 0, long := 0, overrun := 0 } }
      status := .ok
      body := e.link.counts.bytes }
  else e.refuse .badArgument

end Sys2Proof.Machine
end

