-- ==== Sys2Proof/Machine/Link.lean ====
section
/-! DEFINITION. The System Link (chapter 10): the taking of a request and its reply, the buffers, the receiver, and the
commands of the link. A request row of the table is the arrival of that request's complete frame (log 1). -/

namespace Sys2Proof.Machine

/-! ### Taking a request (R163, R164) -/

/-- The owner of a KIND 0x01..0x12 serves the request (section 10.4); any other KIND is unknown. -/
def Ev.dispatch (e : Ev) (f : Frame) : Served :=
  match f.kind.toNat with
  | 1 => e.serveIdentify f.body
  | 2 => e.serveGo f.body
  | 3 => e.serveTakeNotices f.body
  | 4 => e.serveAckOff f.body
  | 5 => e.serveReadState f.body
  | 6 => e.serveReadRail f.body
  | 7 => e.serveReadMeasure f.body
  | 8 => e.serveReadBudget f.body
  | 9 => e.serveReadFault f.body
  | 10 => e.serveClearFault f.body
  | 11 => e.serveReadShutdown f.body
  | 12 => e.serveSetHold f.body
  | 13 => e.serveRunService f.body
  | 14 => e.serveResetBoard f.body
  | 15 => e.serveReadConfig f.body
  | 16 => e.serveEditConfig f.body
  | 17 => e.serveStore f.body
  | 18 => e.serveReadLink f.body
  | _ => e.refuse .unknownKind

/-- The checks that hold for every kind come first (R163). -/
def Ev.served (e : Ev) (f : Frame) : Served :=
  if e.sys = .starting ∧ f.kind ≠ 1 then e.refuse .notReady else e.dispatch f

/-- A request is taken: served within the event, the reply composed after its effects, transmission begun (R163 to
R165). -/
def Ev.take (e : Ev) (f : Frame) : Ev :=
  let r := e.served f
  { r.ev with
    link.service := some f
    link.tx := replyBytes f.kind f.tag r.status r.ev.summary r.body }

/-- A complete frame reaches the buffers (R162). -/
def Ev.frameArrives (e : Ev) (f : Frame) : Ev :=
  if e.link.service.isNone then e.take f
  else if e.link.waiting.isNone then { e with link.waiting := some f }
  else { e with link.counts.overrun := satInc 255 e.link.counts.overrun }

/-! ### The receiver (R160) -/

/-- A character is examined as a possible start byte. -/
def Rx.hunt (c : Byte) : Rx := if c = startByte then .inFrame [] else .hunting

/-- The length byte of the bytes after the start byte. -/
def lenByte (l : List Byte) : Nat := (l.headD 0).toNat

/-- A character in its place in a frame: LEN, KIND, TAG, body byte or CRC. `l` holds the bytes after the start byte, the
new one last. -/
def Ev.framed (e : Ev) (l : List Byte) : Ev :=
  if 56 < lenByte l then { e with link.rx := .hunting, link.counts.long := satInc 255 e.link.counts.long }
  else if l.length < lenByte l + 4 then { e with link.rx := .inFrame l }
  else if crc8 l.dropLast = l.getLastD 0 then
    { e with link.rx := .hunting }.frameArrives
      { kind := l.getD 1 0, tag := l.getD 2 0, body := (l.drop 3).dropLast }
  else { e with link.rx := .hunting, link.counts.crc := satInc 255 e.link.counts.crc }

/-- The gap that discards a frame, in µs: more than 5 ms (R160). -/
def gapLimitUs : Nat := 5000

/-- A character arrives (R160), with the gap before it as the command gives it (log 5). -/
def Ev.character (e : Ev) (gapUs : Nat) (c : Byte) : Ev :=
  match e.link.rx with
  | .hunting => { e with link.rx := Rx.hunt c }
  | .inFrame got =>
    if gapLimitUs < gapUs then { e with link.rx := Rx.hunt c, link.counts.gap := satInc 255 e.link.counts.gap }
    else e.framed (got ++ [c])

/-- RECEIVE_CHARACTER (R160). The receiver runs from the end of a reset (R172). -/
def execReceiveCharacter (gapUs : Nat) (c : Byte) : State → Host.Outcome State Fault Refusal :=
  runEvent fun e => if e.pins.inReset then e else e.character gapUs c

/-- The reply in transmission has ended (R162, R77): the service buffer empties, an ARMED pulse becomes ACTIVE, and a
waiting frame moves into service and is taken. DESIGN CHOICE (log 35): the pulse moves before the request is taken. -/
def Ev.replySent (e : Ev) : Ev :=
  let e1 := { e with link.service := none, link.tx := [] }.pulseReplySent
  match e1.link.waiting with
  | some f => { e1 with link.waiting := none }.take f
  | none => e1

/-- REPLY_LAST_CHARACTER_SENT (R162): it has an effect only while a reply is in transmission. -/
def execReplyLastCharacterSent : State → Host.Outcome State Fault Refusal :=
  runEvent fun e => if e.link.service.isSome then e.replySent else e

/-! ### The request commands: the arrival of a complete frame of a fixed KIND (log 1) -/

/-- A complete frame arrives; the link takes none while RST_N is asserted (log 11). -/
def request (kind tag : Byte) (body : List Byte) : State → Host.Outcome State Fault Refusal :=
  runEvent fun e => if e.pins.inReset then e else e.frameArrives { kind := kind, tag := tag, body := body }

/-- IDENTIFY (R166). -/
def execIdentify (tag : Byte) (body : List Byte) : State → Host.Outcome State Fault Refusal := request 0x01 tag body

/-- GO (R4). -/
def execGo (tag : Byte) (body : List Byte) : State → Host.Outcome State Fault Refusal := request 0x02 tag body

/-- TAKE_NOTICES (R169). -/
def execTakeNotices (tag : Byte) (body : List Byte) : State → Host.Outcome State Fault Refusal := request 0x03 tag body

/-- ACK_OFF (R57, R167). -/
def execAckOff (tag : Byte) (body : List Byte) : State → Host.Outcome State Fault Refusal := request 0x04 tag body

/-- READ_STATE (R19). -/
def execReadState (tag : Byte) (body : List Byte) : State → Host.Outcome State Fault Refusal := request 0x05 tag body

/-- READ_RAIL (R44). -/
def execReadRail (tag : Byte) (body : List Byte) : State → Host.Outcome State Fault Refusal := request 0x06 tag body

/-- READ_MEASURE (R95). -/
def execReadMeasure (tag : Byte) (body : List Byte) : State → Host.Outcome State Fault Refusal := request 0x07 tag body

/-- READ_BUDGET (R108). -/
def execReadBudget (tag : Byte) (body : List Byte) : State → Host.Outcome State Fault Refusal := request 0x08 tag body

/-- READ_FAULT (R158). -/
def execReadFault (tag : Byte) (body : List Byte) : State → Host.Outcome State Fault Refusal := request 0x09 tag body

/-- CLEAR_FAULT (R152). -/
def execClearFault (tag : Byte) (body : List Byte) : State → Host.Outcome State Fault Refusal := request 0x0A tag body

/-- READ_SHUTDOWN (R130). -/
def execReadShutdown (tag : Byte) (body : List Byte) : State → Host.Outcome State Fault Refusal := request 0x0B tag body

/-- SET_HOLD (R137). -/
def execSetHold (tag : Byte) (body : List Byte) : State → Host.Outcome State Fault Refusal := request 0x0C tag body

/-- RUN_SERVICE (R65). -/
def execRunService (tag : Byte) (body : List Byte) : State → Host.Outcome State Fault Refusal := request 0x0D tag body

/-- RESET_BOARD (R76). -/
def execResetBoard (tag : Byte) (body : List Byte) : State → Host.Outcome State Fault Refusal := request 0x0E tag body

/-- READ_CONFIG (R173). -/
def execReadConfig (tag : Byte) (body : List Byte) : State → Host.Outcome State Fault Refusal := request 0x0F tag body

/-- EDIT_CONFIG (R174). -/
def execEditConfig (tag : Byte) (body : List Byte) : State → Host.Outcome State Fault Refusal := request 0x10 tag body

/-- STORE (R175). -/
def execStore (tag : Byte) (body : List Byte) : State → Host.Outcome State Fault Refusal := request 0x11 tag body

/-- READ_LINK (R171). -/
def execReadLink (tag : Byte) (body : List Byte) : State → Host.Outcome State Fault Refusal := request 0x12 tag body

end Sys2Proof.Machine
end

