-- ==== Sys2Proof/Machine/Dispatch.lean ====
section
/-! DEFINITION. Which meaning each command has: one arm for each constructor of Instr. -/

namespace Sys2Proof.Machine

/-- The effect of a command on everything but the queue. -/
def exec (i : Instr) (s : State) : Host.Outcome State Fault Refusal :=
  match i with
  | .powerOnReset => Sys2Proof.Machine.execPowerOnReset s
  | .pinReset => Sys2Proof.Machine.execPinReset s
  | .imageCheckComplete => Sys2Proof.Machine.execImageCheckComplete s
  | .receiveCharacter gapUs c => Sys2Proof.Machine.execReceiveCharacter gapUs c s
  | .replyLastCharacterSent => Sys2Proof.Machine.execReplyLastCharacterSent s
  | .identify tag body => Sys2Proof.Machine.execIdentify tag body s
  | .go tag body => Sys2Proof.Machine.execGo tag body s
  | .takeNotices tag body => Sys2Proof.Machine.execTakeNotices tag body s
  | .ackOff tag body => Sys2Proof.Machine.execAckOff tag body s
  | .readState tag body => Sys2Proof.Machine.execReadState tag body s
  | .readRail tag body => Sys2Proof.Machine.execReadRail tag body s
  | .readMeasure tag body => Sys2Proof.Machine.execReadMeasure tag body s
  | .readBudget tag body => Sys2Proof.Machine.execReadBudget tag body s
  | .readFault tag body => Sys2Proof.Machine.execReadFault tag body s
  | .clearFault tag body => Sys2Proof.Machine.execClearFault tag body s
  | .readShutdown tag body => Sys2Proof.Machine.execReadShutdown tag body s
  | .setHold tag body => Sys2Proof.Machine.execSetHold tag body s
  | .runService tag body => Sys2Proof.Machine.execRunService tag body s
  | .resetBoard tag body => Sys2Proof.Machine.execResetBoard tag body s
  | .readConfig tag body => Sys2Proof.Machine.execReadConfig tag body s
  | .editConfig tag body => Sys2Proof.Machine.execEditConfig tag body s
  | .store tag body => Sys2Proof.Machine.execStore tag body s
  | .readLink tag body => Sys2Proof.Machine.execReadLink tag body s
  | .storeVerified => Sys2Proof.Machine.execStoreVerified s
  | .storeNotVerified => Sys2Proof.Machine.execStoreNotVerified s
  | .acOkChange asserted => Sys2Proof.Machine.execAcOkChange asserted s
  | .wakeLineChange line asserted => Sys2Proof.Machine.execWakeLineChange line asserted s
  | .wakeQualifyExpiry line => Sys2Proof.Machine.execWakeQualifyExpiry line s
  | .keyHoldExpiry => Sys2Proof.Machine.execKeyHoldExpiry s
  | .pgPinChange r high => Sys2Proof.Machine.execPgPinChange r high s
  | .pgDeglitchExpiry r => Sys2Proof.Machine.execPgDeglitchExpiry r s
  | .lockPinChange high => Sys2Proof.Machine.execLockPinChange high s
  | .lockDeglitchExpiry => Sys2Proof.Machine.execLockDeglitchExpiry s
  | .periodTimerExpiry => Sys2Proof.Machine.execPeriodTimerExpiry s
  | .busVoltageConversion code => Sys2Proof.Machine.execBusVoltageConversion code s
  | .busCurrentConversion code => Sys2Proof.Machine.execBusCurrentConversion code s
  | .slowConversion code => Sys2Proof.Machine.execSlowConversion code s
  | .rampDeadlineExpiry r => Sys2Proof.Machine.execRampDeadlineExpiry r s
  | .drainTimeout r => Sys2Proof.Machine.execDrainTimeout r s
  | .retryWaitExpiry r => Sys2Proof.Machine.execRetryWaitExpiry r s
  | .waitStepExpiry => Sys2Proof.Machine.execWaitStepExpiry s
  | .awaitLockDeadlineExpiry => Sys2Proof.Machine.execAwaitLockDeadlineExpiry s
  | .handshakeDeadlineExpiry => Sys2Proof.Machine.execHandshakeDeadlineExpiry s
  | .resetPulseExpiry => Sys2Proof.Machine.execResetPulseExpiry s
  | .graceExpiry => Sys2Proof.Machine.execGraceExpiry s
  | .qualifyExpiry => Sys2Proof.Machine.execQualifyExpiry s
  | .rideLimitExpiry => Sys2Proof.Machine.execRideLimitExpiry s
  | .settleExpiry => Sys2Proof.Machine.execSettleExpiry s
  | .restoreIntervalExpiry => Sys2Proof.Machine.execRestoreIntervalExpiry s
  | .restExpiry => Sys2Proof.Machine.execRestExpiry s
  | .endOfPinReset => Sys2Proof.Machine.execEndOfPinReset s

end Sys2Proof.Machine
end

