-- ==== Sys2Proof/Safety.lean ====
section
/-! DEFINITION. The terms the statements about the part use: what a sound state is, which request a command brings to
be taken, what a reply leaves in the link, and runs of several commands. -/

namespace Sys2Proof

open Sys2Proof.Machine

/-- The frame a request row stands for (R160, section 10.4); none for the other commands. -/
def Instr.frame? : Instr → Option Frame
  | .identify t b => some ⟨0x01, t, b⟩
  | .go t b => some ⟨0x02, t, b⟩
  | .takeNotices t b => some ⟨0x03, t, b⟩
  | .ackOff t b => some ⟨0x04, t, b⟩
  | .readState t b => some ⟨0x05, t, b⟩
  | .readRail t b => some ⟨0x06, t, b⟩
  | .readMeasure t b => some ⟨0x07, t, b⟩
  | .readBudget t b => some ⟨0x08, t, b⟩
  | .readFault t b => some ⟨0x09, t, b⟩
  | .clearFault t b => some ⟨0x0A, t, b⟩
  | .readShutdown t b => some ⟨0x0B, t, b⟩
  | .setHold t b => some ⟨0x0C, t, b⟩
  | .runService t b => some ⟨0x0D, t, b⟩
  | .resetBoard t b => some ⟨0x0E, t, b⟩
  | .readConfig t b => some ⟨0x0F, t, b⟩
  | .editConfig t b => some ⟨0x10, t, b⟩
  | .store t b => some ⟨0x11, t, b⟩
  | .readLink t b => some ⟨0x12, t, b⟩
  | .powerOnReset | .pinReset | .imageCheckComplete | .receiveCharacter _ _ | .replyLastCharacterSent
  | .storeVerified | .storeNotVerified | .acOkChange _ | .wakeLineChange _ _ | .wakeQualifyExpiry _
  | .keyHoldExpiry | .pgPinChange _ _ | .pgDeglitchExpiry _ | .lockPinChange _ | .lockDeglitchExpiry
  | .periodTimerExpiry | .busVoltageConversion _ | .busCurrentConversion _ | .slowConversion _
  | .rampDeadlineExpiry _ | .drainTimeout _ | .retryWaitExpiry _ | .waitStepExpiry
  | .awaitLockDeadlineExpiry | .handshakeDeadlineExpiry | .resetPulseExpiry | .graceExpiry
  | .qualifyExpiry | .rideLimitExpiry | .settleExpiry | .restoreIntervalExpiry | .restExpiry
  | .endOfPinReset => none

/-- A request body its rule refuses as BAD_ARGUMENT before it looks at anything else (R4, R19, R44, R57, R65, R76, R95,
R108, R130, R137, R152, R158, R166, R169, R171, R173, R174, R175). -/
def Instr.badBody : Instr → Prop
  | .identify _ b | .ackOff _ b | .readState _ b | .readShutdown _ b | .resetBoard _ b | .store _ b | .readLink _ b =>
    b ≠ []
  | .go _ b => b ≠ [0] ∧ b ≠ [1] ∧ b ≠ [2]
  | .takeNotices _ b => b ≠ [] ∧ b ≠ [1] ∧ b ≠ [2] ∧ b ≠ [3] ∧ b ≠ [4]
  | .readRail _ b => ∀ n : Byte, n.toNat < 12 → b ≠ [n]
  | .readMeasure _ b => ∀ n o : Byte, n.toNat < 15 → o.toNat < 2 → b ≠ [n, o]
  | .readBudget _ b => b ≠ [0] ∧ b ≠ [1]
  | .readFault _ b => ∀ n : Byte, n.toNat < 15 → b ≠ [n]
  | .clearFault _ b => ∀ n : Byte, n.toNat ≤ 15 → b ≠ [n]
  | .setHold _ b => ∀ k v : Byte, 1 ≤ k.toNat → k.toNat ≤ 4 → v.toNat < 2 → b ≠ [k, v]
  | .runService _ b => b ≠ [6] ∧ b ≠ [7]
  | .readConfig _ b => ∀ g : Group, b ≠ g.addressBytes
  | .editConfig _ b => ∀ (g : Group) (l : List Byte), b ≠ g.addressBytes ++ l
  | .powerOnReset | .pinReset | .imageCheckComplete | .receiveCharacter _ _ | .replyLastCharacterSent
  | .storeVerified | .storeNotVerified | .acOkChange _ | .wakeLineChange _ _ | .wakeQualifyExpiry _
  | .keyHoldExpiry | .pgPinChange _ _ | .pgDeglitchExpiry _ | .lockPinChange _ | .lockDeglitchExpiry
  | .periodTimerExpiry | .busVoltageConversion _ | .busCurrentConversion _ | .slowConversion _
  | .rampDeadlineExpiry _ | .drainTimeout _ | .retryWaitExpiry _ | .waitStepExpiry
  | .awaitLockDeadlineExpiry | .handshakeDeadlineExpiry | .resetPulseExpiry | .graceExpiry
  | .qualifyExpiry | .rideLimitExpiry | .settleExpiry | .restoreIntervalExpiry | .restExpiry
  | .endOfPinReset => False

/-- A part reset (R15). -/
def Instr.isReset (c : Instr) : Prop := c = .powerOnReset ∨ c = .pinReset

namespace Machine

/-- The frame that the bytes after a start byte spell: LEN, KIND, TAG, body, CRC (R160). -/
def Frame.ofBytes (l : List Byte) : Frame := ⟨l.getD 1 0, l.getD 2 0, (l.drop 3).dropLast⟩

/-- Character `ch`, `gap` µs after the one before it, completes the frame begun by `got`: it is not late, LEN is at most
56, no byte is missing behind it, and it is the CRC of the bytes before it (R160). -/
def frameCompletes (got : List Byte) (gap : Nat) (ch : Byte) : Prop :=
  gap ≤ 5000 ∧ lenByte (got ++ [ch]) ≤ 56 ∧ lenByte (got ++ [ch]) + 4 ≤ (got ++ [ch]).length ∧ crc8 got = ch

/-- Command `c` makes the link take request `f`, by R160 and R162: the request row's own frame, the frame a character
completes, each with RST_N released and the service buffer empty, or the waiting frame at the end of a reply. -/
def State.takes (s : State) (c : Instr) (f : Frame) : Prop :=
  match c with
  | .receiveCharacter gap ch =>
    s.pins.inReset = false ∧ s.link.service = none
      ∧ ∃ got, s.link.rx = .inFrame got ∧ frameCompletes got gap ch ∧ f = Frame.ofBytes (got ++ [ch])
  | .replyLastCharacterSent => s.link.service ≠ none ∧ s.link.waiting = some f
  | c => s.pins.inReset = false ∧ s.link.service = none ∧ c.frame? = some f

/-- The request clears rail `r`: a CLEAR_FAULT naming its source or ALL (R23, R42). -/
def Frame.clearsRail (f : Frame) (r : Rail) : Prop :=
  f.kind = 0x0A ∧ (clearArg f.body = some (.one (srcRail r)) ∨ clearArg f.body = some .all)

/-- The link can take a request at once: RST_N is released and no request is in service. -/
def State.ready (s : State) : Prop := s.pins.inReset = false ∧ s.link.service = none

/-- The state with a request in service and its reply in transmission, the rest as `s` (R162, R164, R165). -/
def State.replied (s : State) (f : Frame) (st : Status) (body : List Byte) : State :=
  { s with link.service := some f, link.tx := replyBytes f.kind f.tag st s.summary body }

/-- The keys of a notice queue are distinct (R168). -/
def keysDistinct (q : List Notice) : Prop := (q.map Notice.key).Nodup

/-- What holds of the part in every state it reaches: one notice a key (R168), fault counts within 0..255 (R150), a
frame waits only behind one in service, and a reply is in transmission exactly while a request is in service (R162). -/
structure State.Sound (s : State) : Prop where
  keys : keysDistinct s.notices
  counts : ∀ i : Fin 15, s.faults[i].occurrences ≤ 255
  waits : s.link.waiting ≠ none → s.link.service ≠ none
  sends : s.link.tx ≠ [] ↔ s.link.service ≠ none

/-- The reset pulse after a reply's last character (R77): an ARMED one is ACTIVE at the pulse width then standing. -/
def State.pulseAtReplyEnd (s : State) : Pulse :=
  match s.pulse with
  | .armed => .active (s.now + 1000 * s.cfg.system.pulseMs)
  | .idle => .idle
  | .active d => .active d

/-- The state at the end of a reply: both buffers empty, the transmitter idle (R162). -/
def State.freed (s : State) : State :=
  { s with link.service := none, link.waiting := none, link.tx := [], pulse := s.pulseAtReplyEnd }

/-- No entry stands in the pending set. -/
def PendingSet.none : PendingSet := { panelSnap := .none, boardSnap := .none, panelCare := .none, user := .none }

/-- The engine would stay idle at a run of the arbiter: it is idle, nothing is pending, and no plan that R5 names is
startable (R61). -/
def State.atRest (s : State) : Prop := s.run = none ∧ s.reqs = PendingSet.none ∧ s.startable = none

/-- Target `g` sets nothing off: a transition or snap plan is in hand (R3), or the engine stays idle with it. -/
def State.unmovedBy (s : State) (g : Target) : Prop :=
  (∃ run, s.run = some run ∧ run.plan.isService = false) ∨ ({ s with target := g } : State).atRest

/-- The target written by a writer that also disarms the return, with the STATE notice of R2, and nothing else. -/
def State.retargeted (s : State) (g : Target) : State :=
  let s1 : State := { s with target := g, retArmed := false }
  { s1 with notices := enqueue s.notices .state s1.stateBody }

/-- The rail members of a tier neither run nor rest SHED: shed and unshed requests leave them alone (R41). -/
def State.membersAside (s : State) (k : Fin 4) : Prop :=
  ∀ r ∈ s.members k, s.rails[r].state = .off ∨ s.rails[r].state = .faulted ∨ s.rails[r].state = .retryWait

/-- E_reserve and its parts are those of the working tables (R106, R107). -/
def State.reserveMatches (s : State) : Prop :=
  s.bud.partPanel = reservePart s.tables .panelSnap ∧ s.bud.partBoard = reservePart s.tables .boardSnap
    ∧ s.bud.eReserve
        = eReserveOf s.tables.budget.guardMJ (reservePart s.tables .panelSnap) (reservePart s.tables .boardSnap)

/-- Plan `p` starts in `s` and its first step is a WAIT of `ms` ms, `ms` not 0: the start ends with that WAIT in
flight (R49, R54). -/
def State.opensWithWait (s : State) (p : PlanId) (ms : Nat) : Prop :=
  (s.cfg.plan p).bodyLast ≠ 0 ∧ (s.stepOf p 1).kind = .wait ∧ (s.stepOf p 1).value = ms ∧ 0 < ms

/-- The run of plan `p`, started in `s` with cause `cause`, that waits out the WAIT of its first step. -/
def State.firstWait (s : State) (p : PlanId) (cause : Cause) (ms : Nat) : Run :=
  { plan := p, inTail := false, current := 1, cause := cause, tailOutcome := .none, tailStep := 0, tailCause := .none,
    stepsDone := 0, wait := .time (s.now + 1000 * ms) }

/-- The characters of a string of bytes, each with the gap before it. -/
def characters (gaps : List Nat) (bytes : List Byte) : List Instr := List.zipWith Instr.receiveCharacter gaps bytes

/-- The commands of a list run one after the other, none waiting in the queue. -/
def runAll : List Instr → State → Host.Outcome State Fault Refusal
  | [], s => .next s
  | c :: l, s =>
    match exec c s with
    | .next t => runAll l t
    | o => o

/-- The step after the step in flight of the running plan's body is a WAIT of `ms` ms, `ms` not 0: the event that ends
the step in flight then ends with that WAIT in flight. -/
def State.waitsNext (s : State) (run : Run) (ms : Nat) : Prop :=
  run.inTail = false ∧ run.current < (s.cfg.plan run.plan).bodyLast
    ∧ (s.stepOf run.plan (run.current + 1)).kind = .wait ∧ (s.stepOf run.plan (run.current + 1)).value = ms ∧ 0 < ms

/-- The run one step further on, waiting out a WAIT of `ms` ms. -/
def State.runWaiting (s : State) (run : Run) (ms : Nat) : Run :=
  { run with current := run.current + 1, stepsDone := run.stepsDone + 1, wait := .time (s.now + 1000 * ms) }

/-- The step in flight of the running plan's body waits for `w`, and the step after it is a WAIT of `ms` ms. -/
def State.waitsOn (s : State) (w : Wait) (run : Run) (ms : Nat) : Prop :=
  s.run = some run ∧ run.wait = w ∧ s.waitsNext run ms

/-- The state with the current step of `run` ended, with a note or a cause if `note` is not NONE, which becomes the
run's last exception (R58), and the WAIT of `ms` ms after it begun (R50). -/
def State.passed (t : State) (run : Run) (ms : Nat) (note : Cause) : State :=
  { t with
    run := some (t.runWaiting run ms)
    plans :=
      if note = .none then t.plans
      else t.plans.set run.plan.idx { t.plans[run.plan.idx] with excStep := run.current, excCause := note } }

/-- A miss of the current step of `run`, or a DRAIN_LATE, is passed over (R47, R52, R58). -/
def State.passesOver (s : State) (run : Run) : Prop :=
  (s.stepOf run.plan run.current).onMiss = .goOn ∨ run.plan.isSnap = true

/-- A plan's record right after a start (R49): merged and the last exception are reset and the run is counted. -/
def PlanRt.atStart (x : PlanRt) : PlanRt :=
  { x with merged := false, excStep := 0, excCause := .none, runCount := satInc 65535 x.runCount }

/-- The content of a record's FAULT notice (R151). -/
def FaultRec.noticeBody (f : FaultRec) : NoticeBody := .fault f.state f.latestCause f.occurrences

/-- The state with an occurrence recorded on a source and its FAULT notice queued (R150, R151). -/
def State.occurred (s : State) (src : Fin 15) (o : Occurrence) : State :=
  let f := s.faults[src].occur s.sys o
  { s with faults := s.faults.set src f, notices := enqueue s.notices (.fault src) f.noticeBody }

/-- The state with the condition of an ACTIVE record ended: the record is STICKY and FAULT is queued (R149, R151). -/
def State.eased (s : State) (src : Fin 15) : State :=
  let f : FaultRec := { s.faults[src] with condition := false }
  { s with faults := s.faults.set src f, notices := enqueue s.notices (.fault src) f.noticeBody }

/-- No RAIL_ON or RAIL_OFF step waits on the rail. -/
def State.noStepOn (s : State) (r : Rail) : Prop := s.waitOf ≠ .railOn r ∧ s.waitOf ≠ .railOff r

/-- The shutdown record as an opening that carries no figures writes it (R128). -/
def ShutdownRec.opened (cause : ShutCause) : ShutdownRec :=
  { isOpen := true, cause := cause, source := 0, eAvail := 0, h := 0, tiersHeld := #v[false, false, false, false],
    rideMs := 0, handshake := .none, lastPlan := .none, stepsDone := 0, resetSeenPin := false }

/-- The state with PANEL_SNAP started by a request of cause `cause`, waiting out its first step, a WAIT of `ms` ms
(R49): a supervision that was watching and a reset pulse end with the start (R77, R85). -/
def State.snapBegun (s : State) (cause : Cause) (ms : Nat) : State :=
  { s with
    run := some (s.firstWait .panelSnap cause ms)
    plans := s.plans.set 4 s.plans[4].atStart
    sup := .inactive
    watch := if s.sup = .watching then .stopped (s.countedUs s.watch) else s.watch
    pulse := .idle }

/-- The same after a request for both snap plans: BOARD_SNAP is pending behind PANEL_SNAP (R63). -/
def State.snapsBegun (s : State) (cause : Cause) (ms : Nat) : State :=
  { s.snapBegun cause ms with reqs := { PendingSet.none with boardSnap := some cause } }

/-- The engine is idle with nothing pending, and PANEL_SNAP, were it requested, would begin with a WAIT of `ms` ms and
set nothing else off: no dark hold stands and no dip is seen (R49, R85, R115). -/
def State.snapReady (s : State) (ms : Nat) : Prop :=
  s.run = none ∧ s.reqs = PendingSet.none ∧ (s.sup = .inactive ∨ s.sup = .watching)
    ∧ (s.dipSeen = false ∨ s.ride.state ≠ .normal) ∧ s.opensWithWait .panelSnap ms

/-- The state with a POWER notice of what it now holds (R125). -/
def State.powerTold (s : State) : State := { s with notices := enqueue s.notices .power s.powerBody }

/-- The settling is over: the settling flag is clear, the settle and ride-limit timers are stopped (R119, log 18). -/
def State.afterSettling (s : State) : State :=
  { s with ride.settling := false, ride.settleTimer := none, ride.limitTimer := none }

/-- The ride has ended in NORMAL with its recovery counted and its clock stopped (R120). -/
def State.afterRecovery (s : State) : State :=
  { s with
    ride.state := .normal
    ride.belowDip := 0
    ride.restoreTimer := none
    ride.clock := .stopped (s.countedUs s.ride.clock)
    ride.stats.recoveries := satInc 65535 s.ride.stats.recoveries }

/-- The state with a STATE notice of what it now holds (R2). -/
def State.stateTold (s : State) : State := { s with notices := enqueue s.notices .state s.stateBody }

/-- The state an action SYSTEM or LOCKOUT leaves where `snapReady` holds (R155): the target STANDBY, a shutdown record
opened with the cause and the source, both snap plans requested, and STATE behind the FAULT notice if the target
changed. -/
def State.forcedOff (s : State) (cause : ShutCause) (source : Nat) (request : Cause) (ms : Nat) : State :=
  let s1 : State :=
    { s with
      target := .standby
      retArmed := if s.target = .standby then s.retArmed else false
      shutdown := { ShutdownRec.opened cause with source := source }
      ride.slot := .none }
  let s2 := s1.snapsBegun request ms
  if s.target = .standby then s2 else s2.stateTold

/-- The state a rail's fault_action leaves where `snapReady` holds (R154, R155): DROP nothing more, PANEL a target no
higher than BOARD_ON and PANEL_SNAP, SYSTEM and LOCKOUT the whole shutdown. -/
def State.acted (s : State) (src : Fin 15) (a : RailAction) (ms : Nat) : State :=
  match a with
  | .drop => s
  | .panel =>
    if s.target = .panelOn then (({ s with target := .boardOn, retArmed := false } : State).snapBegun .fault ms).stateTold
    else s.snapBegun .fault ms
  | .system | .lockout => s.forcedOff .fault src.val .fault ms

/-- The state with the step in flight abandoned (R64): a waiting handshake ends ABANDONED and OFF_PENDING is withdrawn. -/
def State.abandoned (s : State) : State :=
  if s.handshakeWaits then
    { s with hsMemory := .abandoned, notices := s.notices.filter fun n => decide (n.key ≠ .offPending) }
  else s

/-- The state with the running plan `p` ended: the engine idle, the outcome in the plan's record, PLAN_DONE queued (R60,
the first two actions). -/
def State.planEnded (s : State) (p : PlanId) (o : PlanOutcome) (step : Nat) (cause : Cause) : State :=
  let x := s.plans[p.idx]
  { s with
    run := none
    plans := s.plans.set p.idx { x with lastOutcome := o, outcomeStep := step, outcomeCause := cause }
    notices := enqueue s.notices (.planDone p) (.planDone o step cause x.merged) }

/-- The shutdown record after the end of a BOARD_SNAP run of `steps` steps (R129): completed, unless a pin reset cut the
shutdown short; the handshake slot is used up with it. -/
def State.snapRecorded (s : State) (steps : Nat) : State :=
  if s.shutdown.isOpen = true ∨ s.shutdown.resetSeenPin = false then
    { s with
      shutdown :=
        { s.shutdown with
          isOpen := false
          lastPlan := .boardSnap
          stepsDone := steps
          handshake := if s.ride.slot = .none then s.shutdown.handshake else s.ride.slot }
      ride.slot := .none }
  else s

/-- The shutdown record after the DONE or FAILED end of a BOARD_DOWN run of `steps` steps (R129): written whole as
HOST_REQUEST where it is CLOSED, the handshake slot used up with it; an open one is left to the forced-off in hand. -/
def State.downRecorded (s : State) (steps : Nat) : State :=
  if s.shutdown.isOpen = true then s
  else
    { s with
      shutdown :=
        { isOpen := false, cause := .hostRequest, source := 0, eAvail := 0, h := 0,
          tiersHeld := #v[false, false, false, false], rideMs := 0, handshake := s.ride.slot, lastPlan := .boardDown,
          stepsDone := steps, resetSeenPin := false }
      ride.slot := .none }

/-- The run with its tail entered for an outcome, waiting out the WAIT of `ms` ms that the tail begins with (R59, R66). -/
def State.tailWaiting (s : State) (run : Run) (o : PlanOutcome) (cause : Cause) (ms : Nat) : Run :=
  { run with
    inTail := true, current := (s.cfg.plan run.plan).tailIndex, tailOutcome := o, tailStep := run.current,
    tailCause := cause, wait := .time (s.now + 1000 * ms) }

/-- The running plan has a tail, and it begins with a WAIT of `ms` ms, `ms` not 0. -/
def State.tailOpensWithWait (s : State) (run : Run) (ms : Nat) : Prop :=
  let n := (s.cfg.plan run.plan).tailIndex
  n ≠ 0 ∧ (s.stepOf run.plan n).kind = .wait ∧ (s.stepOf run.plan n).value = ms ∧ 0 < ms

/-- A rail's record of runtime fields as a drain towards `d` begins: the drain timer runs, both detectors are absent
(R30, R33). -/
def State.drainingTo (s : State) (r : Rail) (x : RailRt) (d : Dest) : RailRt :=
  { x with
    state := .draining, dest := d, timer := some (s.now + 1000 * (s.railCfg r).drainMs), winHalf := false,
    clearedInDrain := false, winDetector := false, pgDetector := false }

/-- A rail's record of runtime fields as attempt `k` of a ramp begins (R26, R28). -/
def State.rampingAt (s : State) (r : Rail) (x : RailRt) (k : Nat) : RailRt :=
  { x with
    state := .ramping, attempt := k, timer := some (s.now + 1000 * ((s.railCfg r).rampMs * 2 ^ (k - 1))), oow := 0,
    winHalf := false, clearedInDrain := false }

/-- A rail with this pg level and monitor does not meet its monitor condition at the start of an attempt (R26, R27). -/
def State.notMetAtOnce (s : State) (r : Rail) : Prop :=
  (s.railCfg r).monitor = .window ∨ s.rails[r].pgLevel = .low ∨ (s.railCfg r).monitor = .both

/-- The record of an input after the completion of a conversion (R91, R92), by its scaling kind. -/
def ChanRec.after (c : ChanRec) (code : Nat) (scaled : Int) : ChanRec :=
  { code := code, scaled := scaled, clipped := decide (code = 0 ∨ code = 4095), minCode := min c.minCode code,
    maxCode := max c.maxCode code, count := satInc 65535 c.count,
    clips := if code = 0 ∨ code = 4095 then satInc 255 c.clips else c.clips }

/-- The state with the code of rail input `i` recorded at the end of the third conversion, before the rail judges it
(R90, R92, R25). -/
def State.railRead (s : State) (i : Fin 15) (code : Code) (mv : Nat) : State :=
  { s with
    scan.records := s.scan.records.set i (s.scan.records[i].after code.toNat mv)
    scan.conv := none
    scan.pointer := nextPointer i }

/-- The state with a hold set of tier `k` replaced, the shed count raised where it becomes non-empty (R132, R133). -/
def State.held (s : State) (k : Fin 4) (h : HoldSet) : State :=
  { s with
    tiers := s.tiers.set k
      { holds := h
        shedCount := if s.tiers[k].holds.any = false ∧ h.any = true then satInc 65535 s.tiers[k].shedCount
          else s.tiers[k].shedCount } }

/-- A transition or snap plan is in hand, or the engine is at rest in `s`: an opening of the mains gate that leaves `s`
sets nothing off. -/
def State.still (s : State) : Prop := (∃ run, s.run = some run ∧ run.plan.isService = false) ∨ s.atRest

end Machine

end Sys2Proof
end

