-- ==== Sys2Proof/Certificates/Slice0/Obligations.lean ====
section
/-! DEFINITION. The statements about the part, one Prop each, for the provers. `exec c s = .next t` says that command
`c` completes in `s` and leaves `t`; where `t` is written out, everything not named in it is as in `s`. -/

section

open Sys2Proof Sys2Proof.Machine

/-! ### The machine as a whole -/

/-- A step takes the command at the front of the queue and is `exec` of it on the state with the queue's rest. On an
empty queue one µs of the model's own clock passes (the model's choice, log 2). -/
def Obligations.StepTakesTheFrontCommand : Prop :=
  (∀ (c : Instr) (rest : List Instr) (s : State), s.pending = c :: rest → step s = exec c { s with pending := rest })
    ∧ ∀ s : State, s.pending = [] → step s = .next { s with now := s.now + 1 }

/-- Each event is taken whole (chapter 95): every command in every state answers a next state, never a fault or a
refusal, and leaves the queue alone. That no command moves the model's clock is the model's choice (log 2). -/
def Obligations.EveryCommandAnswersNext : Prop :=
  ∀ (c : Instr) (s : State), ∃ t, exec c s = .next t ∧ t.pending = s.pending ∧ t.now = s.now

/-- The state right after a power-on reset is sound. -/
def Obligations.ResetStateIsSound : Prop := State.Sound State.reset

/-- Every step keeps soundness: one notice a key (R168), fault counts within 0..255 (R150), a frame waits only behind
one in service and a reply is in transmission exactly while a request is in service (R162). -/
def Obligations.StepKeepsSound : Prop := ∀ s t : State, s.Sound → step s = .next t → t.Sound

/-- R23: what each rail state drives on the enable and the bleed output, and that a FAULTED rail leaves FAULTED only
through a CLEAR_FAULT naming its source or ALL, or through a part reset. The outputs are functions of the state, so they
change with it. -/
def Obligations.FaultedRailLeavesByClearOrReset : Prop :=
  (∀ (s : State) (r : Rail), (s.enableOut r = true ↔ s.rails[r].state = .ramping ∨ s.rails[r].state = .on)
      ∧ (s.bleedOut r = true ↔ s.rails[r].state = .draining ∧ (s.railCfg r).bleed = true))
    ∧ ∀ (c : Instr) (s t : State) (r : Rail), exec c s = .next t → s.rails[r].state = .faulted →
        t.rails[r].state ≠ .faulted → c.isReset ∨ ∃ f, s.takes c f ∧ f.clearsRail r

/-- No command but a part reset lowers a fault's occurrence count (R150). -/
def Obligations.FaultCountsFallOnlyAtReset : Prop :=
  ∀ (c : Instr) (s t : State) (i : Fin 15), exec c s = .next t → ¬ c.isReset →
    s.faults[i].occurrences ≤ t.faults[i].occurrences

/-! ### Resets and start-up -/

/-- R20: the State Controller after either part reset, and the gate of R6 from the end of start-up. -/
def Obligations.StateControllerAfterReset : Prop :=
  (∀ (c : Instr) (s : State), c.isReset → ∃ t, exec c s = .next t ∧ t.sys = .starting ∧ t.target = .standby
      ∧ t.retVal = none ∧ t.retArmed = false ∧ (∀ w : WakeLine, t.wakeQ[wakeIdx w] = .idle) ∧ t.keyHold = .idle
      ∧ t.gateOpen = false)
    ∧ ∀ s : State, s.sys ≠ .starting →
        (s.gateOpen = true ↔ s.pins.acOk = true ∧ s.ride.state = .normal ∧ s.thermal.state ≠ .hot)

/-- R111: the Hold-Up Budget after either part reset. -/
def Obligations.BudgetAfterReset : Prop :=
  ∀ (c : Instr) (s : State), c.isReset → ∃ t, exec c s = .next t
    ∧ t.cfg.budget = { busCap := 100, floor := 1000, pFloor := 1000, guardMJ := 0 } ∧ t.bud.eReserve = 0
    ∧ t.bud.partPanel = 0 ∧ t.bud.partBoard = 0
    ∧ t.bud.record = { vb := 0, ib := 0, eAvail := 0, pMeas := 0, pNow := 0, eReserve := 0, h := 0, tCommit := 0,
                       count := 0 }
    ∧ t.scan.vb = none

/-- Either part reset returns the rails (R22), the plans and the pending set (R70), the lines, the pulse and supervision
(R87), ride-through (R131), the tiers, the limit and the thermal checks (R147), every fault record (R159), the link
(R172) and the working tables (R176). That it keeps the levels of the pins the part reads is the model's choice (log 7),
and that the image stands is log 8; the target byte of a blank step is log 37. -/
def Obligations.ResetReturnsEveryBlock : Prop :=
  ∀ (c : Instr) (s : State), c.isReset → ∃ t, exec c s = .next t
    ∧ (∀ r : Rail, t.rails[r].state = .off ∧ t.rails[r].dest = .off ∧ t.rails[r].attempt = 0
        ∧ t.rails[r].retryCount = 0 ∧ t.rails[r].lastMV = 0 ∧ t.rails[r].pgLevel = .low ∧ t.rails[r].oow = 0
        ∧ t.rails[r].timer = none ∧ t.enableOut r = false ∧ t.bleedOut r = false)
    ∧ t.run = none ∧ t.reqs = PendingSet.none ∧ t.hsMemory = .none
    ∧ (∀ p : PlanId, t.planStatus p = .idle ∧ t.currentStep p = 0 ∧ t.plans[p.idx] =
        { lastOutcome := .none, outcomeStep := 0, outcomeCause := .none, excStep := 0, excCause := .none,
          merged := false, runCount := 0 })
    ∧ (∀ l : LineId, t.planLevels[l.idx] = (if l = .audMute ∨ l = .faultN then .high else .low)
        ∧ t.driven l = t.planLevels[l.idx])
    ∧ t.pulse = .idle ∧ t.sup = .inactive ∧ t.darkHold = false ∧ t.lockLevel = false ∧ t.watchMs = 0
    ∧ (t.lockTimer.isSome = true ↔ s.pins.lock = true)
    ∧ t.ride.state = .normal ∧ t.ride.settling = false ∧ t.ride.belowDip = 0 ∧ t.ride.qualifyTimer = none
    ∧ t.ride.limitTimer = none ∧ t.ride.settleTimer = none ∧ t.ride.restoreTimer = none ∧ t.ride.restTimer = none
    ∧ t.ride.clock = .stopped 0 ∧ t.ride.slot = .none
    ∧ t.ride.stats = { shortDips := 0, rides := 0, recoveries := 0, commits := 0 }
    ∧ (∀ k : Fin 4, t.tiers[k].holds = { ride := false, limit := false, heat := false, host := false }
        ∧ t.tiers[k].shedCount = 0)
    ∧ t.limit.state = .watch ∧ t.limit.softCount = 0 ∧ t.limit.releaseCount = 0 ∧ t.limit.hardCount = 0
    ∧ t.limit.softPresent = false ∧ t.limit.hardPresent = false ∧ t.limit.holdTier = none
    ∧ t.thermal.state = .cool ∧ t.heatOpen = true
    ∧ (∀ i : Fin 15, t.faults[i].state = .clear ∧ t.faults[i].latch = false ∧ t.faults[i].condition = false
        ∧ t.faults[i].occurrences = 0 ∧ t.faults[i].firstCause = .none ∧ t.faults[i].firstValue = 0
        ∧ t.faults[i].firstState = none ∧ t.faults[i].latestCause = .none ∧ t.faults[i].action = .none)
    ∧ t.link = { rx := .hunting, service := none, waiting := none, tx := [],
                 counts := { crc := 0, gap := 0, long := 0, overrun := 0 } }
    ∧ t.notices = [] ∧ t.attn = false ∧ t.tables = blankTables ∧ t.store.writing = false
    ∧ t.store.lastResult = .none ∧ t.store.image = s.store.image ∧ t.pins.acOk = s.pins.acOk
    ∧ t.pins.wake = s.pins.wake ∧ t.pins.lock = s.pins.lock ∧ t.pins.pg = s.pins.pg

/-- The shutdown record (R127) and the scanner (R98) at the resets: a power-on reset gives every field of the record its
first value; a pin reset keeps every field but the phase, which becomes CLOSED, and reset seen, which becomes PIN.
Either gives the scanner's records, Ts and pointer their reset values. After a power-on reset the first period and the
image check are begun at once (RST_N is taken as released, the model's choice, log 26); after a pin reset they wait for
its end. -/
def Obligations.ShutdownRecordAtReset : Prop :=
  ∀ s : State,
    let scannerReset (t : State) : Prop :=
      t.scan.tsUs = 500 ∧ t.scan.vb = none ∧ t.scan.pointer = 2
        ∧ ∀ i : Fin 15, t.scan.records[i] =
            { code := 0, scaled := if i = 2 then -400 else 0, clipped := false, minCode := 4095, maxCode := 0,
              count := 0, clips := 0 }
    (∃ t, exec .powerOnReset s = .next t ∧ t.pins.inReset = false ∧ t.store.checking = true ∧ scannerReset t
        ∧ t.scan.timer = some (s.now + 500) ∧ t.scan.conv = some .busVoltage
        ∧ t.shutdown = { isOpen := false, cause := .none, source := 0, eAvail := 0, h := 0,
                         tiersHeld := #v[false, false, false, false], rideMs := 0, handshake := .none,
                         lastPlan := .none, stepsDone := 0, resetSeenPin := false })
    ∧ ∃ t, exec .pinReset s = .next t ∧ t.pins.inReset = true ∧ t.store.checking = false ∧ scannerReset t
        ∧ t.scan.timer = none ∧ t.scan.conv = none
        ∧ t.shutdown = { s.shutdown with isOpen := false, resetSeenPin := true }

/-- The end of a pin reset starts the scanner at its reset values (R98) and the image check (R176), and changes nothing
else. Outside a pin reset the command has no effect (the model's choice, log 3). -/
def Obligations.EndOfPinResetStartsScannerAndCheck : Prop :=
  ∀ s : State,
    (s.pins.inReset = true → ∃ t, exec .endOfPinReset s = .next t
        ∧ { t with scan := s.scan } = { s with pins.inReset := false, store.checking := true }
        ∧ t.scan.tsUs = 500 ∧ t.scan.timer = some (s.now + 500) ∧ t.scan.conv = some .busVoltage ∧ t.scan.vb = none
        ∧ t.scan.pointer = 2
        ∧ ∀ i : Fin 15, t.scan.records[i] =
            { code := 0, scaled := if i = 2 then -400 else 0, clipped := false, minCode := 4095, maxCode := 0,
              count := 0, clips := 0 })
    ∧ (s.pins.inReset = false → exec .endOfPinReset s = .next s)

/-- A bad image (R16, R176): the tables are blank, the state becomes UNCONFIGURED, the target stands, a STATE notice is
queued, and each IDLE qualifier whose line is asserted begins to time the blank-table 50 ms (R12). The target byte of a
blank step is the model's choice (log 37). -/
def Obligations.BadImageLeavesUnconfigured : Prop :=
  ∀ s : State, s.store.checking = true → s.store.image.good = false → s.sys = .starting → s.keyHold = .idle →
    ∃ t, exec .imageCheckComplete s = .next t ∧ t.sys = .unconfigured ∧ t.tables = blankTables
      ∧ t.store = { s.store with checking := false } ∧ t.target = s.target
      ∧ t.notices = enqueue s.notices .state (.state .unconfigured s.target s.runningPlan)
      ∧ (∀ w : WakeLine, t.wakeQ[wakeIdx w] =
          if s.wakeQ[wakeIdx w] = .idle ∧ s.pins.wake[wakeIdx w] = true then .qualifying (s.now + 50000)
          else s.wakeQ[wakeIdx w])
      ∧ t.bud = s.bud ∧ t.rails = s.rails ∧ t.run = s.run ∧ t.keyHold = .idle ∧ t.faults = s.faults

/-- A good image (R16, R107, R166, R176): the working tables and the revision are those of the image and the reserve is
computed from them. From the idle STARTING that a reset leaves, with the auto-on target STANDBY or the mains gate's
conditions not met, the state becomes STANDBY, the target the auto-on target, and no plan starts. -/
def Obligations.GoodImageIsLoaded : Prop :=
  ∀ s : State, s.store.checking = true → s.store.image.good = true →
    ∃ t, exec .imageCheckComplete s = .next t ∧ t.tables = s.store.image.tables
      ∧ t.store = { s.store with checking := false, revision := s.store.image.tables.system.revision }
      ∧ t.reserveMatches ∧ t.bud.record = s.bud.record
      ∧ (s.sys = .starting → s.run = none → s.reqs = PendingSet.none →
          s.keyHold = .idle →
          (t.tables.system.autoOn = .standby ∨ s.pins.acOk = false ∨ s.ride.state ≠ .normal
            ∨ s.thermal.state = .hot) →
          t.sys = .standby ∧ t.target = t.tables.system.autoOn ∧ t.run = none
            ∧ t.rails.map (·.state) = s.rails.map (·.state)
            ∧ (∀ l : LineId, t.planLevels[l.idx] = if l = .faultN then .high else (t.tables.line l).safe)
            ∧ t.notices = enqueue s.notices .state (.state .standby t.target none))

/-! ### The system link -/

/-- The receiver (R160, R171): hunting for a start byte; the bytes of a frame up to its CRC; and the three discards,
each with its count: LEN above 56, a gap over 5 ms, a CRC that does not match. -/
def Obligations.ReceiverTakesACharacter : Prop :=
  ∀ (s : State) (gap : Nat) (ch : Byte), s.pins.inReset = false →
    (s.link.rx = .hunting → exec (.receiveCharacter gap ch) s
      = .next { s with link.rx := if ch = 0xC3 then .inFrame [] else .hunting })
    ∧ ∀ got, s.link.rx = .inFrame got →
      (5000 < gap → exec (.receiveCharacter gap ch) s
        = .next { s with link.rx := if ch = 0xC3 then .inFrame [] else .hunting,
                         link.counts.gap := satInc 255 s.link.counts.gap })
      ∧ (gap ≤ 5000 → got = [] → 56 < ch.toNat → exec (.receiveCharacter gap ch) s
        = .next { s with link.rx := .hunting, link.counts.long := satInc 255 s.link.counts.long })
      ∧ (gap ≤ 5000 → got = [] → ch.toNat ≤ 56 → exec (.receiveCharacter gap ch) s
        = .next { s with link.rx := .inFrame [ch] })
      ∧ ∀ (len : Byte) (l : List Byte), gap ≤ 5000 → got = len :: l → len.toNat ≤ 56 →
        (l.length < len.toNat + 2 → exec (.receiveCharacter gap ch) s = .next { s with link.rx := .inFrame (got ++ [ch]) })
        ∧ (l.length = len.toNat + 2 → ch ≠ crc8 got → exec (.receiveCharacter gap ch) s
          = .next { s with link.rx := .hunting, link.counts.crc := satInc 255 s.link.counts.crc })

/-- R160 and R161: the characters of a request's frame, no gap after the first over 5 ms, do what the request's own
command does. That a request row stands for the arrival of its complete frame is the model's choice (log 1). -/
def Obligations.CharactersOfAFrameAreTheRequest : Prop :=
  ∀ (c : Instr) (f : Frame) (gaps : List Nat) (s : State), c.frame? = some f → f.body.length ≤ 56 →
    s.pins.inReset = false → s.link.rx = .hunting → gaps.length = f.body.length + 5 →
    (∀ g ∈ gaps.tail, g ≤ 5000) →
    runAll (characters gaps (frameBytes f.kind f.tag f.body)) s = exec c s

/-- The CRC-8 of R161 shows every damage of one byte: two strings that differ in one byte have different CRCs; and a
string followed by its own CRC has CRC 0. -/
def Obligations.CrcShowsOneWrongByte : Prop :=
  (∀ (a b : List Byte) (x y : Byte), x ≠ y → crc8 (a ++ [x] ++ b) ≠ crc8 (a ++ [y] ++ b))
    ∧ ∀ l : List Byte, crc8 (l ++ [crc8 l]) = 0

/-- The buffers of R162: behind a request in service one frame waits, and a further one is discarded with count
OVERRUN. At the end of a reply the service buffer empties, an ARMED pulse becomes ACTIVE (R77), and a waiting request is
taken as its own command would be, after the pulse (the model's choice, log 35). While RST_N is asserted no frame is
taken, and with no reply in transmission the reply's end has no effect (the model's choices, log 11 and log 3). -/
def Obligations.BuffersHoldTwoFrames : Prop :=
  (∀ (c : Instr) (f : Frame) (s : State), c.frame? = some f →
    (s.pins.inReset = false → s.link.service ≠ none → s.link.waiting = none →
      exec c s = .next { s with link.waiting := some f })
    ∧ (s.pins.inReset = false → s.link.service ≠ none → s.link.waiting ≠ none →
      exec c s = .next { s with link.counts.overrun := satInc 255 s.link.counts.overrun })
    ∧ (s.pins.inReset = true → exec c s = .next s))
    ∧ ∀ s : State,
      (s.link.service ≠ none → s.link.waiting = none → exec .replyLastCharacterSent s = .next s.freed)
      ∧ (∀ (c : Instr) (f : Frame), s.link.service ≠ none → s.link.waiting = some f → c.frame? = some f →
          s.pins.inReset = false → exec .replyLastCharacterSent s = exec c s.freed)
      ∧ (s.link.service = none → exec .replyLastCharacterSent s = .next s)

/-- The two checks of R163: in STARTING every request but IDENTIFY is answered NOT_READY, elsewhere a KIND outside
0x01..0x12 is answered UNKNOWN_KIND, both without any other effect: for the frame of a request row, for the frame that a
character completes into an empty service buffer (R160, R162), and for the waiting frame at the end of a reply. -/
def Obligations.NotReadyAndUnknownKind : Prop :=
  (∀ (c : Instr) (f : Frame) (s : State), c.frame? = some f → s.ready → s.sys = .starting → f.kind ≠ 1 →
      exec c s = .next (s.replied f .notReady []))
    ∧ (∀ (gap : Nat) (len kind tag ch : Byte) (body : List Byte) (s : State), s.ready → gap ≤ 5000 →
        s.link.rx = .inFrame (len :: kind :: tag :: body) → len.toNat ≤ 56 → body.length = len.toNat →
        crc8 (len :: kind :: tag :: body) = ch →
      let heard : State := { s with link.rx := .hunting }
      (s.sys = .starting → kind ≠ 1 →
          exec (.receiveCharacter gap ch) s = .next (heard.replied ⟨kind, tag, body⟩ .notReady []))
      ∧ (s.sys ≠ .starting → kind.toNat = 0 ∨ 18 < kind.toNat →
          exec (.receiveCharacter gap ch) s = .next (heard.replied ⟨kind, tag, body⟩ .unknownKind [])))
    ∧ ∀ (f : Frame) (s : State), s.link.service ≠ none → s.link.waiting = some f →
      (s.sys = .starting → f.kind ≠ 1 → exec .replyLastCharacterSent s = .next (s.freed.replied f .notReady []))
      ∧ (s.sys ≠ .starting → f.kind.toNat = 0 ∨ 18 < f.kind.toNat →
          exec .replyLastCharacterSent s = .next (s.freed.replied f .unknownKind []))

/-- Outside STARTING a request whose body is not of its form is answered BAD_ARGUMENT with an empty reply body and
changes nothing (R163 and the first check of each owning rule). The codes that make a body of its form are those of
R177; that CLEAR_FAULT codes ALL as 15, behind its sources, is log 14. -/
def Obligations.BadBodyIsRefused : Prop :=
  ∀ (c : Instr) (f : Frame) (s : State), c.frame? = some f → s.ready → s.sys ≠ .starting → c.badBody →
    exec c s = .next (s.replied f .badArgument [])

/-- The reading requests are answered OK with their record, IDENTIFY in every state and the others outside STARTING, and
change nothing (R19, R44, R95, R108, R130, R158, R166, R173). The records' codes and layouts where the rules leave them
open are the model's (logs 14, 15, 16, 33). -/
def Obligations.ReadsAnswerAndChangeNothing : Prop :=
  ∀ (s : State) (tag : Byte), s.ready →
    exec (.identify tag []) s = .next (s.replied ⟨0x01, tag, []⟩ .ok s.identifyBody)
    ∧ (s.sys ≠ .starting →
      exec (.readState tag []) s = .next (s.replied ⟨0x05, tag, []⟩ .ok s.stateRecord)
      ∧ (∀ r : Rail, exec (.readRail tag [BitVec.ofNat 8 r.val]) s
          = .next (s.replied ⟨0x06, tag, [BitVec.ofNat 8 r.val]⟩ .ok (s.railRecord r)))
      ∧ (∀ i : Fin 15, exec (.readMeasure tag [BitVec.ofNat 8 i.val, 0]) s
          = .next (s.replied ⟨0x07, tag, [BitVec.ofNat 8 i.val, 0]⟩ .ok (s.measureRecord i)))
      ∧ exec (.readBudget tag [0]) s = .next (s.replied ⟨0x08, tag, [0]⟩ .ok s.budgetRecord)
      ∧ (∀ i : Fin 15, exec (.readFault tag [BitVec.ofNat 8 i.val]) s
          = .next (s.replied ⟨0x09, tag, [BitVec.ofNat 8 i.val]⟩ .ok (s.faultRecord i)))
      ∧ exec (.readShutdown tag []) s = .next (s.replied ⟨0x0B, tag, []⟩ .ok s.shutdown.bytes)
      ∧ ∀ g : Group, exec (.readConfig tag g.addressBytes) s
          = .next (s.replied ⟨0x0F, tag, g.addressBytes⟩ .ok (s.configRecord g)))

/-- The reads that clear answer with the values as they stood and then return to their reset values the statistics of
one record (R96), the ride statistics (R109) or the link counts (R171), and change nothing else. -/
def Obligations.ClearingReadsClearAfterTheReply : Prop :=
  ∀ (s : State) (tag : Byte), s.ready → s.sys ≠ .starting →
    (∀ i : Fin 15, exec (.readMeasure tag [BitVec.ofNat 8 i.val, 1]) s
      = .next
          (({ s with
              scan.records := s.scan.records.set i
                { s.scan.records[i] with minCode := 4095, maxCode := 0, count := 0, clips := 0 } } : State).replied
            ⟨0x07, tag, [BitVec.ofNat 8 i.val, 1]⟩ .ok (s.measureRecord i)))
    ∧ exec (.readBudget tag [1]) s
      = .next (({ s with ride.stats := { shortDips := 0, rides := 0, recoveries := 0, commits := 0 } } : State).replied
                ⟨0x08, tag, [1]⟩ .ok s.budgetRecord)
    ∧ exec (.readLink tag []) s
      = .next (({ s with link.counts := { crc := 0, gap := 0, long := 0, overrun := 0 } } : State).replied
                ⟨0x12, tag, []⟩ .ok
                [BitVec.ofNat 8 s.link.counts.crc, BitVec.ofNat 8 s.link.counts.gap, BitVec.ofNat 8 s.link.counts.long,
                 BitVec.ofNat 8 s.link.counts.overrun])

/-- TAKE_NOTICES (R169) removes the oldest notices, 4 for an empty body, and returns them in queue order behind their
number; the SUMMARY counts the ones left. -/
def Obligations.TakeNoticesTakesTheOldest : Prop :=
  ∀ (s : State) (tag : Byte) (n : Nat) (body : List Byte), s.ready → s.sys ≠ .starting →
    (body = [] ∧ n = 4) ∨ (∃ b : Byte, body = [b] ∧ n = b.toNat ∧ 1 ≤ n ∧ n ≤ 4) →
    exec (.takeNotices tag body) s
      = .next (({ s with notices := s.notices.drop n } : State).replied ⟨0x03, tag, body⟩ .ok
          (BitVec.ofNat 8 (min n s.notices.length) :: (s.notices.take n).flatMap Notice.bytes))

/-- In a sound state the queue holds at most 27 notices (R168), and the SUMMARY byte carries their number and the three
flags of R165, at the bits R177 gives them. ATTN_N is asserted while a notice is queued or a handshake waits (R170). -/
def Obligations.SummaryTellsWhatWaits : Prop :=
  ∀ s : State, s.Sound → s.notices.length ≤ 27
    ∧ s.summary.toNat % 32 = s.notices.length
    ∧ (s.summary.getLsbD 5 = true ↔ ∃ d, s.waitOf = .handshake d)
    ∧ (s.summary.getLsbD 6 = true ↔ s.ride.state ≠ .normal)
    ∧ (s.summary.getLsbD 7 = true ↔ s.sys = .lockout)
    ∧ (s.attn = true ↔ s.notices ≠ [] ∨ ∃ d, s.waitOf = .handshake d)

/-- R164: no reply is longer than 61 characters, whatever request is taken. -/
def Obligations.RepliesFitTheFrame : Prop :=
  ∀ (c : Instr) (s t : State), s.link.tx.length ≤ 61 → exec c s = .next t → t.link.tx.length ≤ 61

/-! ### Requests -/

/-- GO (R4). In UNCONFIGURED and LOCKOUT it is refused WRONG_STATE and in COMMITTED POWER_FAIL. Accepted, it disarms the
return and writes the target; a new value queues STATE (R3). The reply is GATED in REST, and where R5 then chooses an up
plan and the gate is closed, else OK, with the state and the target as written, before a plan starts (log 21). The
written states are those in which the target sets nothing off, and those in which it aborts a running service plan
before its tail (R66): with no tail the plan ends ABORTED, with a tail the tail begins, here with a WAIT. -/
def Obligations.GoWritesTheTarget : Prop :=
  ∀ (s : State) (tag : Byte) (g : Target), s.ready →
    (s.sys = .unconfigured ∨ s.sys = .lockout → exec (.go tag [codeIn targets g]) s
      = .next (s.replied ⟨0x02, tag, [codeIn targets g]⟩ .wrongState []))
    ∧ ∀ g0 : Target, s.sys = g0.toState →
      let status : Status := if s.ride.state = .rest ∨ (g0.rank < g.rank ∧ s.gateOpen = false) then .gated else .ok
      let accepted (t : State) : State :=
        t.replied ⟨0x02, tag, [codeIn targets g]⟩ status [codeIn sysStates s.sys, codeIn targets g]
      (s.ride.state = .committed → exec (.go tag [codeIn targets g]) s
        = .next (s.replied ⟨0x02, tag, [codeIn targets g]⟩ .powerFail []))
      ∧ (s.ride.state ≠ .committed → s.target = g → exec (.go tag [codeIn targets g]) s
        = .next (accepted { s with retArmed := false }))
      ∧ (s.ride.state ≠ .committed → s.target ≠ g → s.unmovedBy g → exec (.go tag [codeIn targets g]) s
        = .next (accepted (s.retargeted g)))
      ∧ ∀ run : Run, s.ride.state ≠ .committed → s.target ≠ g → s.run = some run → run.plan.isService = true →
          run.inTail = false →
        let s1 : State := { s.abandoned with target := g, retArmed := false }
        ((s.cfg.plan run.plan).tailIndex = 0 → s.sys ≠ .panelOn → s.reqs = PendingSet.none →
            ({ s with target := g } : State).startable = none → exec (.go tag [codeIn targets g]) s
          = .next (accepted
              (({ s1 with run := none } : State).stateTold.planEnded run.plan .aborted run.current .targetChanged)))
        ∧ ∀ ms, s.tailOpensWithWait run ms → exec (.go tag [codeIn targets g]) s
          = .next (accepted
              ({ s1 with run := some (s.tailWaiting run .aborted .targetChanged ms) } : State).stateTold)

/-- A GO in STANDBY with the gate open and the engine idle starts BOARD_UP in the same event (R3, R5, R49, R61): run
count, merged flag and last exception are set, STATE shows the plan, and the first step, here a WAIT, is in flight. -/
def Obligations.GoStartsBoardUp : Prop :=
  ∀ (s : State) (tag : Byte) (g : Target) (ms : Nat), s.ready → s.sys = .standby → s.target = .standby → g ≠ .standby →
    s.run = none → s.reqs = PendingSet.none → s.gateOpen = true → s.dipSeen = false → s.sup = .inactive →
    s.opensWithWait .boardUp ms →
    exec (.go tag [codeIn targets g]) s
      = .next (({ s with
          target := g
          retArmed := false
          run := some (s.firstWait .boardUp .planned ms)
          plans := s.plans.set 0 { s.plans[0] with merged := false, excStep := 0, excCause := .none,
                                                   runCount := satInc 65535 s.plans[0].runCount }
          notices := enqueue s.notices .state (.state .standby g (some .boardUp)) } : State).replied
        ⟨0x02, tag, [codeIn targets g]⟩ .ok [codeIn sysStates .standby, codeIn targets g])

/-- ACK_OFF and the deadline end a waiting handshake (R57, R167): the memory, the handshake slot of a down or snap plan,
the withdrawal of OFF_PENDING, the note LATE at the deadline, and the plan's next step, here a WAIT. With no handshake
waiting ACK_OFF is refused TOO_LATE after a LATE one and else WRONG_STATE. -/
def Obligations.HandshakeIsAnsweredOrLate : Prop :=
  ∀ (s : State) (tag : Byte),
    (∀ (run : Run) (d ms : Nat), s.run = some run → run.wait = .handshake d → s.waitsNext run ms →
      (s.ready → s.sys ≠ .starting → exec (.ackOff tag []) s
        = .next (({ s with
            run := some (s.runWaiting run ms)
            hsMemory := .acked
            notices := s.notices.filter fun n => decide (n.key ≠ .offPending)
            ride.slot := if run.plan.isUp || run.plan.isService then s.ride.slot else .acked } : State).replied
          ⟨0x04, tag, []⟩ .ok []))
      ∧ exec .handshakeDeadlineExpiry s
        = .next { s with
            run := some (s.runWaiting run ms)
            hsMemory := .late
            notices := s.notices.filter fun n => decide (n.key ≠ .offPending)
            ride.slot := if run.plan.isUp || run.plan.isService then s.ride.slot else .late
            plans := s.plans.set run.plan.idx
              { s.plans[run.plan.idx] with excStep := run.current, excCause := .late } })
    ∧ ((∀ d, s.waitOf ≠ .handshake d) → s.ready → s.sys ≠ .starting → exec (.ackOff tag []) s
        = .next (s.replied ⟨0x04, tag, []⟩ (if s.hsMemory = .late then .tooLate else .wrongState) []))

/-- CLEAR_FAULT of one source (R152, R153): an ACTIVE record refuses it; a STICKY one becomes CLEAR; a LATCHED one is
released; each change queues FAULT, and the reply carries the state left. Stated for the sources 12 to 14 with no limit
latched; for source 12 with the limit LATCHED, whose LIMIT hold goes and whose soft condition ends before the release
(R141), here in a tier whose rail members stay as they are; and for a rail outside FAULTED, whose retry count returns to
0 and which, draining towards FAULTED, now drains to OFF with the home test due at the drain's end (R42). -/
def Obligations.ClearFaultActsOnTheRecord : Prop :=
  ∀ (s : State) (tag : Byte) (i : Fin 15), s.ready → s.sys ≠ .starting → s.sys ≠ .lockout →
    let b : Byte := BitVec.ofNat 8 i.val
    let f := s.faults[i]
    let f' := match f.state with
      | .clear | .active => f
      | .sticky => f.cleared
      | .latched => f.released
    let n' := if f.state = .clear then s.notices
      else enqueue s.notices (.fault i) (.fault f'.state f'.latestCause f'.occurrences)
    (f.state = .active → exec (.clearFault tag [b]) s = .next (s.replied ⟨0x0A, tag, [b]⟩ .stillActive []))
    ∧ (f.state ≠ .active → 12 ≤ i.val → s.limit.state ≠ .latched → exec (.clearFault tag [b]) s
        = .next (({ s with faults := s.faults.set i f', notices := n' } : State).replied ⟨0x0A, tag, [b]⟩ .ok
            [codeIn faultStates f'.state]))
    ∧ (∀ k : Fin 4, i = srcBusCurrent → f.state = .latched → s.limit.state = .latched → s.limit.holdTier = some k →
        s.tiers[k].holds.limit = true → s.membersAside k →
        let f1 : FaultRec := if s.limit.hardPresent = true then f else { f with condition := false }
        let s1 : State :=
          { s.held k { s.tiers[k].holds with limit := false } with
            limit := { s.limit with state := .watch, countMode := false, softCount := 0, releaseCount := 0,
                                    softPresent := false, holdTier := none }
            faults := s.faults.set i f1.released }
        exec (.clearFault tag [b]) s
          = .next (({ s1.powerTold with
              notices := enqueue s1.powerTold.notices (.fault i) f1.released.noticeBody } : State).replied
            ⟨0x0A, tag, [b]⟩ .ok [codeIn faultStates f1.released.state]))
    ∧ ∀ r : Rail, i = srcRail r → f.state ≠ .active → s.rails[r].state ≠ .faulted →
        let x := s.rails[r]
        exec (.clearFault tag [b]) s
          = .next (({ s with
              faults := s.faults.set i f'
              notices := n'
              rails := s.rails.set r
                (if x.state = .draining ∧ x.dest = .faulted then
                  { x with retryCount := 0, dest := .off, clearedInDrain := true }
                else { x with retryCount := 0 }) } : State).replied ⟨0x0A, tag, [b]⟩ .ok
            [codeIn faultStates f'.state])

/-- CLEAR_FAULT of a FAULTED rail (R42): by the home test it ramps from attempt 1 when its home covers the state and no
plan runs (here with its tier not shed and its monitor not met at once), and goes OFF otherwise; the record is released
with it. -/
def Obligations.ClearFaultReleasesARail : Prop :=
  ∀ (s : State) (tag : Byte) (r : Rail), s.ready → s.sys ≠ .starting → s.sys ≠ .lockout →
    s.rails[r].state = .faulted → s.faults[srcRail r].state = .latched →
    let b : Byte := BitVec.ofNat 8 r.val
    let f' := s.faults[srcRail r].released
    let n' := enqueue s.notices (.fault (srcRail r)) (.fault f'.state f'.latestCause f'.occurrences)
    ((s.railCfg r).home.covers s.sys = false ∨ s.run ≠ none →
      exec (.clearFault tag [b]) s
        = .next (({ s with
            faults := s.faults.set (srcRail r) f'
            notices := n'
            rails := s.rails.set r { s.rails[r] with retryCount := 0, state := .off, timer := none } } : State).replied
          ⟨0x0A, tag, [b]⟩ .ok [codeIn faultStates f'.state]))
    ∧ ((s.railCfg r).home.covers s.sys = true → s.run = none → s.railShed r = false →
        (s.railCfg r).monitor = .window ∨ s.rails[r].pgLevel = .low →
      exec (.clearFault tag [b]) s
        = .next (({ s with
            faults := s.faults.set (srcRail r) f'
            notices := n'
            rails := s.rails.set r
              { s.rails[r] with
                retryCount := 0, state := .ramping, attempt := 1, timer := some (s.now + 1000 * (s.railCfg r).rampMs),
                oow := 0, winHalf := false, clearedInDrain := false } } : State).replied
          ⟨0x0A, tag, [b]⟩ .ok [codeIn faultStates f'.state]))

/-- CLEAR_FAULT of ALL (R152): every record that is not ACTIVE is cleared or released, the retry count of every rail
whose record is not ACTIVE returns to 0, and the reply counts the records changed and those left ACTIVE. That ALL is
coded 15 is log 14. Stated with no rail FAULTED or DRAINING, no limit latched, outside LOCKOUT. -/
def Obligations.ClearFaultOfAll : Prop :=
  ∀ (s : State) (tag : Byte), s.ready → s.sys ≠ .starting → s.sys ≠ .lockout → s.limit.state ≠ .latched →
    (∀ r : Rail, s.rails[r].state ≠ .faulted ∧ s.rails[r].state ≠ .draining) →
    ∃ t, exec (.clearFault tag [15]) s = .next t
      ∧ (∀ i : Fin 15, t.faults[i] = match s.faults[i].state with
          | .clear | .active => s.faults[i]
          | .sticky => s.faults[i].cleared
          | .latched => s.faults[i].released)
      ∧ (∀ r : Rail, s.faults[srcRail r].state ≠ .active → t.rails[r] = { s.rails[r] with retryCount := 0 })
      ∧ (∀ r : Rail, s.faults[srcRail r].state = .active → t.rails[r] = s.rails[r])
      ∧ t.link.tx = replyBytes 0x0A tag .ok t.summary
          [BitVec.ofNat 8 (allSources.countP fun i =>
              decide (s.faults[i].state = .sticky) || decide (s.faults[i].state = .latched)),
           BitVec.ofNat 8 (allSources.countP fun i => decide (t.faults[i].state = .active))]
      ∧ t.sys = s.sys ∧ t.target = s.target ∧ t.run = s.run ∧ t.tiers = s.tiers

/-- The way out of LOCKOUT (R11, R157): the CLEAR_FAULT that releases the last lockout latch, here that of a FAULTED
rail, moves the state to STANDBY and FAULT_N to HIGH and queues STATE behind FAULT; the rail goes OFF and no plan
starts. While another lockout latch remains the state stays LOCKOUT and FAULT_N as it was. -/
def Obligations.LockoutEndsWithItsLastLatch : Prop :=
  ∀ (s : State) (tag : Byte) (r : Rail), s.ready → s.sys = .lockout → s.rails[r].state = .faulted →
    s.faults[srcRail r].isLockout = true → s.run = none → s.reqs = PendingSet.none → s.target = .standby →
    s.keyHold = .idle →
    let b : Byte := BitVec.ofNat 8 r.val
    let f' := s.faults[srcRail r].released
    let n' := enqueue s.notices (.fault (srcRail r)) (.fault f'.state f'.latestCause f'.occurrences)
    let s' : State :=
      { s with
        faults := s.faults.set (srcRail r) f'
        notices := n'
        rails := s.rails.set r { s.rails[r] with retryCount := 0, state := .off, timer := none } }
    ((∀ i : Fin 15, i ≠ srcRail r → s.faults[i].isLockout = false) → exec (.clearFault tag [b]) s
      = .next (({ s' with
          sys := .standby
          planLevels := s.planLevels.set 5 .high
          notices := enqueue n' .state (.state .standby .standby none) } : State).replied
        ⟨0x0A, tag, [b]⟩ .ok [codeIn faultStates f'.state]))
    ∧ ((∃ i : Fin 15, i ≠ srcRail r ∧ s.faults[i].isLockout = true) → exec (.clearFault tag [b]) s
      = .next (s'.replied ⟨0x0A, tag, [b]⟩ .ok [codeIn faultStates f'.state]))

/-- SET_HOLD (R133, R136, R137): a hold already as asked changes nothing; otherwise the HOST hold is placed or removed
and POWER is queued, and the shed count rises when the tier becomes shed. The codes on = 0 and off = 1 and the reply's shed
byte, 1 when shed, are log 14. Stated for a tier whose rail members a shed or an unshed request leaves alone. -/
def Obligations.SetHoldPlacesAndRemoves : Prop :=
  ∀ (s : State) (tag : Byte) (k : Fin 4) (on : Bool), s.ready → s.sys ≠ .starting → s.membersAside k →
    let body : List Byte := [tierByte k, if on then 0 else 1]
    let x := s.tiers[k]
    let h' := { x.holds with host := on }
    let s' : State :=
      { s with
        tiers := s.tiers.set k
          { holds := h'
            shedCount := if on = true ∧ x.holds.any = false then satInc 65535 x.shedCount else x.shedCount } }
    (x.holds.host = on → exec (.setHold tag body) s
      = .next (s.replied ⟨0x0C, tag, body⟩ .ok [x.holds.byte, if x.holds.any then 1 else 0]))
    ∧ (x.holds.host ≠ on → exec (.setHold tag body) s
      = .next (({ s' with notices := enqueue s.notices .power s'.powerBody } : State).replied ⟨0x0C, tag, body⟩ .ok
          [h'.byte, if h'.any then 1 else 0]))

/-- A hold on an empty set sheds the tier's running rail, and the last hold's removal ramps a SHED one (R41, R134,
R135): stated for a tier with one rail member, ON or RAMPING with no detector present, draining towards its next
attempt, or SHED with its monitor not met at once. -/
def Obligations.HoldShedsAndUnshedsARail : Prop :=
  ∀ (s : State) (tag : Byte) (k : Fin 4) (r : Rail), s.ready → s.sys ≠ .starting → s.members k = [r] →
    let empty : HoldSet := { ride := false, limit := false, heat := false, host := false }
    let x := s.rails[r]
    (s.tiers[k].holds = empty →
      ∃ t, exec (.setHold tag [tierByte k, 0]) s = .next t
        ∧ t.tiers[k] = { holds := { empty with host := true }, shedCount := satInc 65535 s.tiers[k].shedCount }
        ∧ (x.state = .on ∨ x.state = .ramping → x.winDetector = false → x.pgDetector = false →
            (s.railCfg r).monitor ≠ .pg ∨ x.pgLevel = .high →
            t.rails = s.rails.set r (s.drainingTo r x .shed) ∧ t.faults = s.faults ∧ t.run = s.run)
        ∧ (x.state = .draining → x.dest = .ramp →
            t.rails = s.rails.set r { x with dest := .shed } ∧ t.faults = s.faults ∧ t.run = s.run))
    ∧ (s.tiers[k].holds = { empty with host := true } → x.state = .shed → s.notMetAtOnce r →
      ∃ t, exec (.setHold tag [tierByte k, 1]) s = .next t
        ∧ t.tiers[k] = { holds := empty, shedCount := s.tiers[k].shedCount }
        ∧ t.rails = s.rails.set r (s.rampingAt r x 1) ∧ t.faults = s.faults ∧ t.run = s.run)

/-- RUN_SERVICE (R65, R49): the two refusals, the merge, the entry that waits behind a running plan, and the start at
once of an idle engine, here with a WAIT as first step. -/
def Obligations.RunServiceRequestsThePlan : Prop :=
  ∀ (s : State) (tag : Byte) (p : PlanId) (b : Byte), s.ready → s.sys ≠ .starting →
    (b = 6 ∧ p = .panelCare) ∨ (b = 7 ∧ p = .user) →
    let ok : Prop := (p = .panelCare ∧ s.sys = .standby) ∨ s.sys = .boardOn ∨ (p = .user ∧ s.sys = .panelOn)
    (¬ ok → exec (.runService tag [b]) s = .next (s.replied ⟨0x0D, tag, [b]⟩ .wrongState []))
    ∧ (ok → s.runningPlan = some p → exec (.runService tag [b]) s = .next (s.replied ⟨0x0D, tag, [b]⟩ .busy []))
    ∧ (ok → s.planStatus p = .pending → exec (.runService tag [b]) s
        = .next (({ s with plans := s.plans.set p.idx { s.plans[p.idx] with merged := true } } : State).replied
            ⟨0x0D, tag, [b]⟩ .ok []))
    ∧ (ok → s.planStatus p = .idle → s.run ≠ none → exec (.runService tag [b]) s
        = .next (({ s with reqs := s.reqs.put p (some .hostRequest) } : State).replied ⟨0x0D, tag, [b]⟩ .ok []))
    ∧ ∀ ms : Nat, ok → s.run = none → s.reqs = PendingSet.none → s.startable = none → s.opensWithWait p ms →
        s.sup = .inactive → s.dipSeen = false ∨ s.ride.state ≠ .normal → exec (.runService tag [b]) s
        = .next (({ s with
            run := some (s.firstWait p .hostRequest ms)
            plans := s.plans.set p.idx
              { s.plans[p.idx] with
                merged := false, excStep := 0, excCause := .none,
                runCount := satInc 65535 s.plans[p.idx].runCount } } : State).replied ⟨0x0D, tag, [b]⟩ .ok [])

/-- RESET_BOARD (R76): BUSY while a pulse is ARMED or ACTIVE, WRONG_STATE outside BOARD_ON and PANEL_ON or while a plan
runs, else the pulse becomes ARMED. -/
def Obligations.ResetBoardArmsThePulse : Prop :=
  ∀ (s : State) (tag : Byte), s.ready → s.sys ≠ .starting →
    (s.pulse ≠ .idle → exec (.resetBoard tag []) s = .next (s.replied ⟨0x0E, tag, []⟩ .busy []))
    ∧ (s.pulse = .idle → (s.sys ≠ .boardOn ∧ s.sys ≠ .panelOn) ∨ s.run ≠ none →
        exec (.resetBoard tag []) s = .next (s.replied ⟨0x0E, tag, []⟩ .wrongState []))
    ∧ (s.pulse = .idle → s.sys = .boardOn ∨ s.sys = .panelOn → s.run = none →
        exec (.resetBoard tag []) s = .next (({ s with pulse := .armed } : State).replied ⟨0x0E, tag, []⟩ .ok []))

/-! ### The configuration store -/

/-- The three address bytes of R173 and the entries stand one to one. -/
def Obligations.AddressesAreOneToOne : Prop :=
  (∀ g : Group, readAddress g.addressBytes = some g)
    ∧ ∀ (t i x : Byte) (g : Group), address t i x = some g → g.addressBytes = [t, i, x]

/-- Every entry of tables within their ranges, written back as READ_CONFIG returns its fields, is accepted and leaves
the tables as they are (R173, R174); FAULT_N's line entry is the one that no edit writes (R75). -/
def Obligations.FieldsRoundTrip : Prop :=
  ∀ (t : Tables) (g : Group), t.ok = true → g ≠ .line .faultN → t.edited g (t.fields g) = some t

/-- An edit that is accepted writes the addressed group whole and no other: its fields read back as the bytes written,
every other group's fields stand, and tables within their ranges stay so (R174). -/
def Obligations.EditWritesOneGroup : Prop :=
  ∀ (t u : Tables) (g : Group) (body : List Byte), t.edited g body = some u →
    u.fields g = body ∧ (∀ g' : Group, g' ≠ g → u.fields g' = t.fields g') ∧ (t.ok = true → u.ok = true)

/-- EDIT_CONFIG's checks in their order (R174), each refusal without effect. -/
def Obligations.EditIsRefusedInOrder : Prop :=
  ∀ (s : State) (tag : Byte) (g : Group) (l : List Byte), s.ready → s.sys ≠ .starting →
    let body := g.addressBytes ++ l
    (s.tables.edited g l = none → exec (.editConfig tag body) s = .next (s.replied ⟨0x10, tag, body⟩ .badArgument []))
    ∧ ∀ u, s.tables.edited g l = some u →
      (s.ride.state ≠ .normal → exec (.editConfig tag body) s = .next (s.replied ⟨0x10, tag, body⟩ .locked []))
      ∧ (s.ride.state = .normal → s.store.writing = true
            ∨ (∃ p, (g = .header p ∨ ∃ n, g = .step p n) ∧ s.planStatus p ≠ .idle) →
          exec (.editConfig tag body) s = .next (s.replied ⟨0x10, tag, body⟩ .busy []))
      ∧ ∀ r : Rail, s.ride.state = .normal → s.store.writing = false → g = .sense r ∨ g = .timing r →
          s.rails[r].state ≠ .off →
          s.tables.rails[r].used ≠ u.rails[r].used ∨ s.tables.rails[r].monitor ≠ u.rails[r].monitor
            ∨ s.tables.rails[r].fullscaleMV ≠ u.rails[r].fullscaleMV ∨ s.tables.rails[r].bleed ≠ u.rails[r].bleed →
          exec (.editConfig tag body) s = .next (s.replied ⟨0x10, tag, body⟩ .wrongState [])

/-- An accepted EDIT_CONFIG (R174) writes the tables and answers with the entry as READ_CONFIG would return it: in
UNCONFIGURED with no other effect (R17); elsewhere so for the entries that are read where they are used, and with the
reserve recomputed (R107) for the budget, a rail's timing and the snap plans. A rail's SENSE entry restarts its
out-of-window count and starts or stops its qualifier (R24, R43); its POLICY entry ends a REPORT condition (R37) and by
a changed tier drains a running rail to SHED or ramps a SHED one (R43); the LIMIT entry returns the counts to 0, moves a
placed hold and ends an episode (R143); the THERMAL entry moves a placed HEAT hold (R146). The moved holds are stated
where the tiers' rail members stay as they are; that the tier's effect comes before the mode's is log 28. -/
def Obligations.EditIsAccepted : Prop :=
  ∀ (s : State) (tag : Byte) (g : Group) (l : List Byte) (u : Tables), s.ready → s.sys ≠ .starting →
    s.tables.edited g l = some u → s.ride.state = .normal → s.store.writing = false → s.planBusy g = false →
    s.hardRefused g u = false →
    let body := g.addressBytes ++ l
    let s1 : State := { s with tables := u }
    let s2 : State :=
      { s1 with
        bud.partPanel := reservePart u .panelSnap
        bud.partBoard := reservePart u .boardSnap
        bud.eReserve := eReserveOf u.budget.guardMJ (reservePart u .panelSnap) (reservePart u .boardSnap) }
    let leaves (t : State) : Prop :=
      exec (.editConfig tag body) s = .next (t.replied ⟨0x10, tag, body⟩ .ok (t.configRecord g))
    (s.sys = .unconfigured → leaves s1)
    ∧ (s.sys ≠ .unconfigured →
        ((∃ k, g = .tier k) ∨ (∃ n, g = .line n) ∨ (∃ w, g = .wake w) ∨ g = .ride ∨ g = .lock ∨ g = .system
          ∨ (∃ p, p.isSnap = false ∧ (g = .header p ∨ ∃ n, g = .step p n)) → leaves s1)
        ∧ (g = .budget ∨ (∃ r, g = .timing r) ∨ (∃ p, p.isSnap = true ∧ (g = .header p ∨ ∃ n, g = .step p n)) →
            leaves s2)
        ∧ (∀ r : Rail, g = .sense r →
            let old := s.tables.rails[r]
            let new := u.rails[r]
            let x := s.rails[r]
            let x1 : RailRt :=
              if old.lowMV = new.lowMV ∧ old.highMV = new.highMV ∧ old.windowSamples = new.windowSamples then x
              else { x with oow := 0 }
            leaves { s1 with
              rails := s.rails.set r
                (if old.used = new.used then x1
                else if new.used = true then
                  { x1 with
                    pgTimer := if Level.ofBool s.pins.pg[r] = x.pgLevel then none
                      else some (s.now + 1000 * new.pgDeglitchMs) }
                else { x1 with pgTimer := none, pgLevel := .low }) })
        ∧ (∀ r : Rail, g = .policy r →
            let old := s.tables.rails[r]
            let new := u.rails[r]
            let x := s.rails[r]
            let f := s.faults[srcRail r]
            let dropped : Prop := (x.state = .on ∨ x.state = .ramping) ∧ s1.railShed r = true
            let given : Prop := x.state = .shed ∧ s1.railShed r = false
            (old.tier = new.tier ∨ ¬ (dropped ∨ given) →
              (old.faultMode ≠ .report ∨ new.faultMode = .report ∨ f.condition = false → leaves s1)
              ∧ (old.faultMode = .report → new.faultMode ≠ .report → f.state = .active → f.firstCause ≠ .none →
                  leaves (s1.eased (srcRail r))))
            ∧ (old.tier ≠ new.tier → old.faultMode ≠ .report ∨ new.faultMode = .report ∨ f.condition = false →
              (dropped → x.winDetector = false → x.pgDetector = false → new.monitor ≠ .pg ∨ x.pgLevel = .high →
                  leaves { s1 with rails := s.rails.set r (s1.drainingTo r x .shed) })
              ∧ (given → s1.notMetAtOnce r → leaves { s1 with rails := s.rails.set r (s1.rampingAt r x 1) })))
        ∧ (g = .limit →
            let old := s.tables.limit
            let new := u.limit
            let x := s.limit
            let f := s.faults[srcBusCurrent]
            let x1 : LimitRt :=
              if old.softCode = new.softCode ∧ old.releaseCode = new.releaseCode ∧ old.samples = new.samples
                  ∧ old.countM = new.countM then x
              else { x with softCount := 0, hardCount := 0, releaseCount := 0 }
            let x2 : LimitRt := if old.hardCode = new.hardCode then x1 else { x1 with hardCount := 0 }
            (old.mode = new.mode ∨ (new.mode ≠ .off ∧ (x.state = .watch ∨ x.state = .latched)) →
              (old.tier = new.tier ∨ x.holdTier = none ∨ x.holdTier = some new.tier → leaves { s1 with limit := x2 })
              ∧ ∀ k : Fin 4, x.holdTier = some k → k ≠ new.tier → old.tier ≠ new.tier → s.tiers[k].holds.limit = true →
                  s.tiers[new.tier].holds.limit = false → s1.membersAside k → s1.membersAside new.tier →
                  leaves ({ (s1.held k { s.tiers[k].holds with limit := false }).held new.tier
                      { s.tiers[new.tier].holds with limit := true } with
                    limit := { x2 with holdTier := some new.tier } } : State).powerTold)
            ∧ (old.mode ≠ new.mode → old.tier = new.tier → f.state = .active → f.firstCause ≠ .none →
              x.hardPresent = false →
              let closed : LimitRt :=
                { x2 with state := .watch, countMode := false, softCount := 0, releaseCount := 0, softPresent := false,
                          hardCount := if new.mode = .off then 0 else x2.hardCount,
                          holdTier := none }
              (x.state = .noted → x.holdTier = none → leaves (({ s1 with limit := closed } : State).eased srcBusCurrent))
              ∧ ∀ k : Fin 4, x.state = .limiting → x.holdTier = some k → s.tiers[k].holds.limit = true →
                  s1.membersAside k →
                  leaves (({ s1.held k { s.tiers[k].holds with limit := false } with
                    limit := closed } : State).powerTold.eased srcBusCurrent))
            ∧ (old.mode ≠ new.mode → new.mode = .off → old.tier = new.tier ∨ x.holdTier = none →
                x.state = .watch ∨ x.state = .latched →
              let x3 : LimitRt := { x2 with softCount := 0, hardCount := 0, hardPresent := false }
              (x.hardPresent = false ∨ x.softPresent = true → leaves { s1 with limit := x3 })
              ∧ (x.hardPresent = true → x.softPresent = false → f.state = .active → f.firstCause ≠ .none →
                  leaves (({ s1 with limit := x3 } : State).eased srcBusCurrent))))
        ∧ (g = .thermal →
            (s.tables.thermal.tier = u.thermal.tier ∨ s.thermal.holdTier = none
                ∨ s.thermal.holdTier = some u.thermal.tier → leaves s1)
            ∧ ∀ k : Fin 4, s.thermal.holdTier = some k → k ≠ u.thermal.tier → s.tables.thermal.tier ≠ u.thermal.tier →
                s.tiers[k].holds.heat = true → s.tiers[u.thermal.tier].holds.heat = false → s1.membersAside k →
                s1.membersAside u.thermal.tier →
                leaves ({ (s1.held k { s.tiers[k].holds with heat := false }).held u.thermal.tier
                    { s.tiers[u.thermal.tier].holds with heat := true } with
                  thermal.holdTier := some u.thermal.tier } : State).powerTold))

/-- Outside STARTING and UNCONFIGURED, whatever an EDIT_CONFIG writes, E_reserve and its parts stay those of the working
tables (R106, R107): no edit that reaches the reserve is missed. -/
def Obligations.EditKeepsTheReserve : Prop :=
  ∀ (s t : State) (tag : Byte) (body : List Byte), s.sys ≠ .starting → s.sys ≠ .unconfigured → s.reserveMatches →
    exec (.editConfig tag body) s = .next t → t.reserveMatches

/-- STORE and its two completions (R175): the refusals in their order; the write marks the image invalid and holds the
working tables; verified, the image is valid and its revision is reported, not verified it stays invalid; both queue
STORE_DONE. Verified in UNCONFIGURED, start-up goes on as after a good load (R16, R17): the reserve is that of the
tables, and, with the engine idle and no plan to start, the state becomes STANDBY with the auto-on target, STATE behind
STORE_DONE. That the image takes its contents and its CRC at the STORE is the model's choice (log 10), as is the layout
the CRC runs over (log 9). With no write in progress a completion has no effect (the model's choice, log 3). -/
def Obligations.StoreWritesTheImage : Prop :=
  ∀ (s : State) (tag : Byte),
    (s.ready → s.sys ≠ .starting →
      (s.ride.state ≠ .normal ∨ s.pins.acOk = false → exec (.store tag []) s
        = .next (s.replied ⟨0x11, tag, []⟩ .locked []))
      ∧ (s.ride.state = .normal → s.pins.acOk = true → s.store.writing = true → exec (.store tag []) s
        = .next (s.replied ⟨0x11, tag, []⟩ .busy []))
      ∧ (s.ride.state = .normal → s.pins.acOk = true → s.store.writing = false → exec (.store tag []) s
        = .next (({ s with
            store.writing := true
            store.image := { valid := false, tables := s.tables, crc := crc16 s.tables.serial } } : State).replied
          ⟨0x11, tag, []⟩ .ok [])))
    ∧ (s.store.writing = true →
        let stored : Store :=
          { s.store with
            writing := false, lastResult := .ok, image.valid := true
            revision := s.store.image.tables.system.revision }
        let told := enqueue s.notices .storeDone (.storeDone true)
        (s.sys ≠ .unconfigured → exec .storeVerified s = .next { s with store := stored, notices := told })
        ∧ (s.sys = .unconfigured → ∃ t, exec .storeVerified s = .next t ∧ t.tables = s.tables ∧ t.store = stored
            ∧ t.reserveMatches ∧ t.bud.record = s.bud.record
            ∧ (s.run = none → s.reqs = PendingSet.none → s.keyHold = .idle →
                (s.tables.system.autoOn = .standby ∨ s.pins.acOk = false ∨ s.ride.state ≠ .normal
                  ∨ s.thermal.state = .hot) →
                t.sys = .standby ∧ t.target = s.tables.system.autoOn ∧ t.run = none
                  ∧ t.rails.map (·.state) = s.rails.map (·.state)
                  ∧ (∀ l : LineId, t.planLevels[l.idx] = if l = .faultN then .high else (s.tables.line l).safe)
                  ∧ t.notices = enqueue told .state (.state .standby s.tables.system.autoOn none))))
    ∧ (s.store.writing = true → exec .storeNotVerified s
        = .next { s with
            store.writing := false
            store.lastResult := .failed
            store.image.valid := false
            notices := enqueue s.notices .storeDone (.storeDone false) })
    ∧ (s.store.writing = false → exec .storeVerified s = .next s ∧ exec .storeNotVerified s = .next s)

/-- Tables within their ranges that were stored and verified are the working tables again after a pin reset and the
image check that follows it (R15, R16, R175, R176). -/
def Obligations.StoredTablesSurviveAPinReset : Prop :=
  ∀ (s : State) (tag : Byte), s.ready → s.sys ≠ .starting → s.ride.state = .normal → s.pins.acOk = true →
    s.store.writing = false → s.tables.ok = true →
    ∃ t, runAll [.store tag [], .storeVerified, .pinReset, .endOfPinReset, .imageCheckComplete] s = .next t
      ∧ t.tables = s.tables ∧ t.store.revision = s.tables.system.revision ∧ t.reserveMatches

/-! ### Mains, ride-through, commit -/

/-- A change of AC_OK (R6, R18, R115, R116, R119, R121). A deasserted AC_OK starts a dip where ride-through is armed,
stops settling, and ends a restoring; an asserted one ends a short dip, unless the latest Vb lies below dip_level, and
opens the mains gate, at which an armed return fires. The opening is stated where it sets no plan off, and QUALIFY's
entry with qualify_ms above 0. A level the pin already has is no change (the model's choice, log 3). -/
def Obligations.AcOkChangeMovesTheRide : Prop :=
  ∀ s : State,
    exec (.acOkChange s.pins.acOk) s = .next s
    ∧ (s.pins.acOk = true →
        let s1 : State := { s with pins.acOk := false }
        (s.ride.state = .normal → s.rideArmed = false → exec (.acOkChange false) s = .next s1)
        ∧ (s.ride.state = .normal → s.rideArmed = true → 0 < s.cfg.ride.qualifyMs →
            exec (.acOkChange false) s = .next ({ s1 with
              ride.state := .qualify
              ride.qualifyTimer := some (s.now + 1000 * s.cfg.ride.qualifyMs) } : State).powerTold)
        ∧ (s.ride.state = .qualify → exec (.acOkChange false) s = .next s1)
        ∧ (s.ride.state = .riding → s.ride.settling = true → exec (.acOkChange false) s
            = .next ({ s1 with ride.settling := false, ride.settleTimer := none } : State).powerTold)
        ∧ (s.ride.state = .riding → s.ride.settling = false → exec (.acOkChange false) s = .next s1)
        ∧ (s.ride.state = .restoring → exec (.acOkChange false) s = .next ({ s1 with
            ride.state := .riding
            ride.settling := false
            ride.settleTimer := none
            ride.restoreTimer := none
            ride.limitTimer := if s.cfg.ride.rideLimitMs = 0 then none
              else some (s.now + 1000 * s.cfg.ride.rideLimitMs) } : State).powerTold)
        ∧ (s.ride.state = .committed ∨ s.ride.state = .rest → exec (.acOkChange false) s = .next s1))
    ∧ (s.pins.acOk = false →
        let s1 : State := { s with pins.acOk := true }
        (s.ride.state = .riding ∨ s.ride.state = .restoring ∨ s.ride.state = .committed ∨ s.ride.state = .rest
            ∨ (s.ride.state = .qualify ∧ s.bud.record.vb < s.cfg.ride.dipLevel) →
          exec (.acOkChange true) s = .next s1)
        ∧ (s.ride.state = .qualify → s.cfg.ride.dipLevel ≤ s.bud.record.vb → s.retArmed = false →
            let s2 : State :=
              { s1 with
                ride.state := .normal
                ride.belowDip := 0
                ride.qualifyTimer := none
                ride.stats.shortDips := satInc 65535 s.ride.stats.shortDips }
            s2.still → exec (.acOkChange true) s = .next s2.powerTold)
        ∧ (s.ride.state = .normal → s.ride.belowDip ≠ 2 → s.retArmed = false → s1.still →
            exec (.acOkChange true) s = .next s1)
        ∧ ∀ g : Target, s.ride.state = .normal → s.ride.belowDip ≠ 2 → s.sys ≠ .starting → s.thermal.state ≠ .hot →
            s.retArmed = true → s.retVal = some g → g ≠ s.target →
            let s2 : State := { s1 with target := g, retVal := none, retArmed := false }
            s2.still → exec (.acOkChange true) s = .next s2.stateTold)

/-- The ride timers (R116 to R120). The qualify time confirms the dip: RIDING is entered and counted, and the clock
starts. The settling time enters RESTORING, which gives back the highest RIDE hold at once and one more at each
restore interval; the release that leaves none, or an entry that finds none, counts the recovery and ends the ride in
NORMAL within the same event. The tiers given back are stated where their rail members stay as they are, the end of
the ride with mains present where the gate that opens sets nothing off. That the settling sub-flag is clear in
RESTORING is log 18. A timer that does not run has no effect (the model's choice, log 3). -/
def Obligations.RideTimersMoveTheRide : Prop :=
  ∀ s : State,
    (s.ride.qualifyTimer = none → exec .qualifyExpiry s = .next s)
    ∧ (s.ride.qualifyTimer ≠ none → exec .qualifyExpiry s = .next ({ s with
        ride.state := .riding
        ride.settling := false
        ride.qualifyTimer := none
        ride.settleTimer := none
        ride.restoreTimer := none
        ride.limitTimer := if s.cfg.ride.rideLimitMs = 0 then none
          else some (s.now + 1000 * s.cfg.ride.rideLimitMs)
        ride.clock := .running s.now
        ride.stats.rides := satInc 65535 s.ride.stats.rides } : State).powerTold)
    ∧ (s.ride.settleTimer = none → exec .settleExpiry s = .next s)
    ∧ (s.ride.restoreTimer = none → exec .restoreIntervalExpiry s = .next s)
    ∧ ((∀ j : Fin 4, s.tiers[j].holds.ride = false) → s.ride.settleTimer ≠ none → s.pins.acOk = true →
        s.retArmed = false → s.afterSettling.afterRecovery.still →
      exec .settleExpiry s = .next s.afterSettling.afterRecovery.powerTold)
    ∧ ∀ k : Fin 4, s.tiers[k].holds.ride = true → (∀ j : Fin 4, k < j → s.tiers[j].holds.ride = false) →
        s.membersAside k →
        let s1 : State :=
          { s with tiers := s.tiers.set k { s.tiers[k] with holds := { s.tiers[k].holds with ride := false } } }
        ((∃ j : Fin 4, j < k ∧ s.tiers[j].holds.ride = true) → s.ride.settleTimer ≠ none →
          exec .settleExpiry s = .next ({ s1.afterSettling with
            ride.state := .restoring
            ride.belowDip := 0
            ride.restoreTimer := some (s.now + 1000 * s.cfg.ride.restoreIntervalMs) } : State).powerTold)
        ∧ ((∃ j : Fin 4, j < k ∧ s.tiers[j].holds.ride = true) → s.ride.restoreTimer ≠ none →
          exec .restoreIntervalExpiry s = .next { s1 with
            ride.restoreTimer := some (s.now + 1000 * s.cfg.ride.restoreIntervalMs) })
        ∧ ((∀ j : Fin 4, j ≠ k → s.tiers[j].holds.ride = false) → s.pins.acOk = true → s.retArmed = false →
          (s.ride.settleTimer ≠ none → s1.afterSettling.afterRecovery.still →
            exec .settleExpiry s = .next s1.afterSettling.afterRecovery.powerTold)
          ∧ (s.ride.restoreTimer ≠ none → s1.afterRecovery.still →
            exec .restoreIntervalExpiry s = .next s1.afterRecovery.powerTold))

/-- A budget evaluation in each ride state (R105, R115 to R119, R121, R122), with the limit OFF and every tier's rail
members staying as they are. The below-dip count follows dip_level everywhere. NORMAL is left for QUALIFY where
ride-through is armed and a dip is seen. In QUALIFY the return test passes with AC_OK asserted and Vb at dip_level or
above: the short dip is counted and NORMAL is back, here setting no plan off; else only the count moves. In RIDING each
tier whose threshold lies above t_commit takes a RIDE hold, then H at or below 0 commits with cause POWER_LOSS, here with
an idle engine and PANEL_SNAP opening with a WAIT (fault source 0: log 34), and otherwise settling, with settle_ms above
0, begins or stops. A second low evaluation returns RESTORING to RIDING. COMMITTED and REST only count. -/
def Obligations.EvaluationsGovernTheRide : Prop :=
  ∀ (s : State) (code : Code) (vb : Nat), s.scan.conv = some .busCurrent → s.scan.vb = some vb →
    s.cfg.limit.mode = .off → s.limit.state = .watch → (∀ k : Fin 4, s.membersAside k) →
    let c := s.cfg.ride
    let r := evaluate s.cfg.budget s.bud.eReserve vb code.toNat s.bud.record.count
    let below := if vb < c.dipLevel then satInc 2 s.ride.belowDip else 0
    let counted : Ride := { s.ride with belowDip := below }
    let held (k : Fin 4) : Bool := s.tiers[k].holds.ride || decide (r.tCommit < c.thresholds[k])
    let tier (k : Fin 4) : TierRt :=
      { holds := { s.tiers[k].holds with ride := held k }
        shedCount := if s.tiers[k].holds.any = false ∧ held k = true then satInc 65535 s.tiers[k].shedCount
          else s.tiers[k].shedCount }
    ∃ t, exec (.busCurrentConversion code) s = .next t ∧ t.bud.record = r
      ∧ (s.ride.state = .normal → s.rideArmed = false ∨ (s.pins.acOk = true ∧ below ≠ 2) →
          t.ride = counted ∧ t.tiers = s.tiers ∧ t.run = s.run)
      ∧ (s.ride.state = .normal → s.rideArmed = true → s.pins.acOk = false ∨ below = 2 → 0 < c.qualifyMs →
          t.ride = { counted with state := .qualify, qualifyTimer := some (s.now + 1000 * c.qualifyMs) }
            ∧ t.tiers = s.tiers ∧ t.run = s.run ∧ t.notices = enqueue s.notices .power t.powerBody)
      ∧ (s.ride.state = .qualify → s.pins.acOk = false ∨ vb < c.dipLevel →
          t.ride = counted ∧ t.tiers = s.tiers ∧ t.run = s.run ∧ t.notices = s.notices)
      ∧ (s.ride.state = .qualify → s.pins.acOk = true → c.dipLevel ≤ vb → s.retArmed = false →
          ({ s with ride.state := .normal } : State).still →
          t.ride = { s.ride with
              state := .normal, belowDip := 0, qualifyTimer := none
              stats := { s.ride.stats with shortDips := satInc 65535 s.ride.stats.shortDips } }
            ∧ t.tiers = s.tiers ∧ t.run = s.run ∧ t.notices = enqueue s.notices .power t.powerBody)
      ∧ (s.ride.state = .riding → 0 < r.h → 0 < c.settleMs →
          (∀ k : Fin 4, t.tiers[k] = tier k) ∧ t.rails = s.rails ∧ t.run = s.run ∧ t.target = s.target
            ∧ (s.ride.settling = false → s.pins.acOk = false ∨ vb < c.restoreLevel → t.ride = counted)
            ∧ (s.ride.settling = false → s.pins.acOk = true → c.restoreLevel ≤ vb →
                t.ride = { counted with settling := true, settleTimer := some (s.now + 1000 * c.settleMs) })
            ∧ (s.ride.settling = true → c.restoreLevel ≤ vb → t.ride = counted)
            ∧ (s.ride.settling = true → vb < c.restoreLevel →
                t.ride = { counted with settling := false, settleTimer := none }))
      ∧ (∀ (g0 : Target) (ms : Nat), s.ride.state = .riding → r.h ≤ 0 → s.sys = g0.toState → s.target ≠ .standby →
          s.run = none → s.reqs = PendingSet.none → s.sup = .inactive ∨ s.sup = .watching →
          s.opensWithWait .panelSnap ms →
          (∀ k : Fin 4, t.tiers[k] = tier k) ∧ t.rails = s.rails
            ∧ t.ride = { counted with
                state := .committed, settling := false, limitTimer := none, settleTimer := none, slot := .none
                clock := .stopped (s.countedUs s.ride.clock)
                stats := { s.ride.stats with commits := satInc 65535 s.ride.stats.commits } }
            ∧ t.target = .standby ∧ t.retVal = some s.target ∧ t.retArmed = false
            ∧ t.shutdown =
                { ShutdownRec.opened .powerLoss with
                  eAvail := r.eAvail, h := r.h, tiersHeld := #v[held 0, held 1, held 2, held 3]
                  rideMs := min 65535 (s.countedUs s.ride.clock / 1000) }
            ∧ t.run = some (s.firstWait .panelSnap .powerLoss ms)
            ∧ t.reqs = { PendingSet.none with boardSnap := some .powerLoss })
      ∧ (s.ride.state = .restoring → t.tiers = s.tiers ∧ t.run = s.run
            ∧ (below ≠ 2 → t.ride = counted)
            ∧ (below = 2 → t.ride = { counted with
                state := .riding, settling := false, settleTimer := none, restoreTimer := none
                limitTimer := if c.rideLimitMs = 0 then none else some (s.now + 1000 * c.rideLimitMs) }))
      ∧ (s.ride.state = .committed ∨ s.ride.state = .rest → t.ride = counted ∧ t.tiers = s.tiers ∧ t.run = s.run)

/-- The commit at the ride limit (R118, R122): COMMITTED, the target kept as the return target and replaced by STANDBY,
the shutdown record opened with its figures (fault source 0: log 34), both snap plans requested; the idle engine starts
PANEL_SNAP, here with a WAIT first. Then the end of BOARD_SNAP in COMMITTED (R123, R124, R129), at its last WAIT in
BOARD_ON with no lockout latch: STANDBY, the record completed, every RIDE hold gone, here with the tiers' rail members
staying as they are, REST with rest_ms above 0. Then the end of the rest (R18, R124): with the gate closed the return is
armed, with the gate open it fires and BOARD_UP starts. A stopped timer's expiry has no effect (the model's choice,
log 3). -/
def Obligations.CommitAndReturn : Prop :=
  (∀ (s : State) (ms : Nat), s.run = none → s.reqs = PendingSet.none → s.sup = .inactive ∨ s.sup = .watching →
    (∀ g0 : Target, s.ride.limitTimer ≠ none → s.sys = g0.toState → s.target ≠ .standby → s.opensWithWait .panelSnap ms →
      let s1 : State :=
        { s with
          ride.state := .committed
          ride.settling := false
          ride.limitTimer := none
          ride.settleTimer := none
          ride.clock := .stopped (s.countedUs s.ride.clock)
          ride.slot := .none
          ride.stats.commits := satInc 65535 s.ride.stats.commits
          retVal := some s.target
          retArmed := false
          target := .standby
          shutdown :=
            { isOpen := true, cause := .rideLimit, source := 0, eAvail := s.bud.record.eAvail, h := s.bud.record.h,
              tiersHeld := s.tiers.map fun x => x.holds.ride
              rideMs := min 65535 (s.countedUs s.ride.clock / 1000), handshake := .none, lastPlan := .none,
              stepsDone := 0, resetSeenPin := false } }
      exec .rideLimitExpiry s = .next (s1.snapsBegun .rideLimit ms).stateTold.powerTold)
    ∧ (s.ride.limitTimer = none → exec .rideLimitExpiry s = .next s)
    ∧ (s.ride.restTimer = none → exec .restExpiry s = .next s)
    ∧ (s.ride.restTimer ≠ none → s.pins.acOk = false → s.rideArmed = false → exec .restExpiry s
        = .next ({ s with
            ride.restTimer := none
            ride.state := .normal
            ride.belowDip := 0
            retArmed := if s.cfg.ride.autoReturn = true ∧ (s.retVal = some .boardOn ∨ s.retVal = some .panelOn) then true
              else s.retArmed } : State).powerTold)
    ∧ ∀ g : Target, s.sup = .inactive → s.ride.restTimer ≠ none → s.ride.state = .rest → s.pins.acOk = true →
        s.thermal.state ≠ .hot → s.sys = .standby → s.target = .standby → s.cfg.ride.autoReturn = true →
        s.retVal = some g → g ≠ .standby → s.opensWithWait .boardUp ms →
        exec .restExpiry s = .next ({ s with
            ride.restTimer := none
            ride.state := .normal
            ride.belowDip := 0
            retVal := none
            retArmed := false
            target := g
            run := some (s.firstWait .boardUp .planned ms)
            plans := s.plans.set 0 s.plans[0].atStart } : State).powerTold.stateTold)
    ∧ ∀ (s : State) (run : Run) (d : Nat), s.run = some run → run.wait = .time d → run.plan = .boardSnap →
        run.inTail = false → (s.cfg.plan .boardSnap).bodyLast ≤ run.current → s.sys = .boardOn → s.target = .standby →
        s.reqs = PendingSet.none → s.keyHold = .idle → (∀ i : Fin 15, s.faults[i].isLockout = false) →
        s.ride.state = .committed → 0 < s.cfg.ride.restMs → (∀ k : Fin 4, s.membersAside k) →
        let x := s.plans[5]
        exec .waitStepExpiry s = .next
          ((({ s.snapRecorded (run.stepsDone + 1) with
              sys := .standby
              tiers := s.tiers.map fun t => { t with holds := { t.holds with ride := false } }
              ride.state := .rest
              ride.restTimer := some (s.now + 1000 * s.cfg.ride.restMs) } : State).planEnded .boardSnap .done x.excStep
            x.excCause).stateTold.powerTold)

/-! ### Wake lines and the key hold -/

/-- A wake line and its qualifier (R12, R13), with the key hold's share of WAKE_KEY (R14): the assertion starts the
qualify time, the release drops it, and at the expiry the qualifier is HELD and the wake judged; an effective one
disarms the return and writes the line's target, stated where that sets nothing off. A wake is not effective while
BOARD_SNAP runs in COMMITTED (R122), nor in LOCKOUT whatever runs (R10; that it outweighs R13 there is log 17). A
qualifier that is not timing ignores an expiry, and a level the line already has is no change (the model's choices,
log 3). -/
def Obligations.WakeLinesAreQualified : Prop :=
  ∀ (s : State) (w : WakeLine),
    let up : Prop := s.sys = .boardOn ∨ s.sys = .panelOn
    exec (.wakeLineChange w s.pins.wake[wakeIdx w]) s = .next s
    ∧ (s.pins.wake[wakeIdx w] = false → (∀ d, s.keyHold = .timing d → up) → exec (.wakeLineChange w true) s
        = .next { s with
            pins.wake := s.pins.wake.set (wakeIdx w) true
            wakeQ :=
              s.wakeQ.set (wakeIdx w)
                (if s.sys ≠ .starting ∧ s.wakeQ[wakeIdx w] = .idle then
                  .qualifying (s.now + 1000 * (s.cfg.wake w).qualifyMs)
                else s.wakeQ[wakeIdx w])
            keyHold := if w = .key ∧ s.keyHold = .idle ∧ up then .timing (s.now + 1000 * s.cfg.system.keyHoldMs)
              else s.keyHold })
    ∧ (s.pins.wake[wakeIdx w] = true → exec (.wakeLineChange w false) s
        = .next { s with
            pins.wake := s.pins.wake.set (wakeIdx w) false
            wakeQ := s.wakeQ.set (wakeIdx w) (if s.sys ≠ .starting then .idle else s.wakeQ[wakeIdx w])
            keyHold := if w = .key then .idle else s.keyHold })
    ∧ (∀ d, s.wakeQ[wakeIdx w] = .qualifying d →
        let s1 : State := { s with wakeQ := s.wakeQ.set (wakeIdx w) .held }
        let effective : Prop :=
          (s.sys = .standby ∨ (up ∧ (s.runningPlan = some .boardDown ∨ s.runningPlan = some .boardSnap)))
            ∧ ¬ (s.runningPlan = some .boardSnap ∧ s.ride.state = .committed)
        let g := (s.cfg.wake w).target
        (¬ effective → exec (.wakeQualifyExpiry w) s = .next s1)
        ∧ (effective → s.target = g → exec (.wakeQualifyExpiry w) s = .next { s1 with retArmed := false })
        ∧ (effective → s.target ≠ g → s1.unmovedBy g → exec (.wakeQualifyExpiry w) s = .next (s1.retargeted g)))
    ∧ ((∀ d, s.wakeQ[wakeIdx w] ≠ .qualifying d) → exec (.wakeQualifyExpiry w) s = .next s)

/-- The key hold (R14): in COMMITTED only FIRED; with an idle engine the target STANDBY, the return disarmed, the
shutdown record opened with cause KEY_HOLD (fault source 0: log 34) and both snap plans requested, PANEL_SNAP starting,
here with a WAIT first; a running transition plan, or a service plan that the target does not abort, is cut (R64), its
step in flight abandoned and PLAN_DONE queued, before PANEL_SNAP starts; with BOARD_SNAP running the record keeps its
cause and BOARD_SNAP is merged, PANEL_SNAP pending behind it. A timer that is not TIMING ignores the expiry (the model's
choice, log 3). -/
def Obligations.KeyHoldForcesOff : Prop :=
  ∀ (s : State) (ms : Nat),
    ((∀ d, s.keyHold ≠ .timing d) → exec .keyHoldExpiry s = .next s)
    ∧ ∀ d, s.keyHold = .timing d → s.sys = .boardOn ∨ s.sys = .panelOn →
        let fires (t : State) : State :=
          { t with
            keyHold := .fired
            target := .standby
            retArmed := false
            shutdown := ShutdownRec.opened .keyHold
            ride.slot := .none }
        (s.ride.state = .committed → exec .keyHoldExpiry s = .next { s with keyHold := .fired })
        ∧ (s.ride.state ≠ .committed → s.snapReady ms → s.target ≠ .standby →
            exec .keyHoldExpiry s = .next ((fires s).snapsBegun .keyHold ms).stateTold)
        ∧ (∀ run, s.ride.state ≠ .committed → s.run = some run → run.plan.isSnap = false →
            run.plan.isService = false ∨ s.target = .standby → ({ s with run := none } : State).snapReady ms →
            let s1 : State :=
              if s.target = .standby then fires s.abandoned
              else
                { fires s.abandoned with
                  notices := enqueue s.abandoned.notices .state (.state s.sys .standby (some .panelSnap)) }
            exec .keyHoldExpiry s = .next ((s1.planEnded run.plan .cut run.current .keyHold).snapsBegun .keyHold ms))
        ∧ ∀ run, s.ride.state ≠ .committed → s.run = some run → run.plan = .boardSnap → s.reqs = PendingSet.none →
            s.target = .standby →
            exec .keyHoldExpiry s = .next { s with
              keyHold := .fired
              retArmed := false
              reqs := { PendingSet.none with panelSnap := some .keyHold }
              plans := s.plans.set 5 { s.plans[5] with merged := true } }

/-! ### Rails -/

/-- What a rail's power-good pin and its converter input do to it. The pin and its qualifier (R24): a new level is timed, a
return drops it, and at the expiry pg level takes the pin's level; in OFF, SHED, RETRY_WAIT and FAULTED that is all. On a
RAMPING rail a HIGH level meets its half of the monitor condition (R27), on a DRAINING one with monitor PG a LOW level
ends the drain (R31), and on an ON one it is PG_LOST (R34). The third conversion writes last mV and is judged for a used
rail with monitor WINDOW or BOTH (R25): RAMPING, a reading at or above low_mV meets the window half and may bring the
rail ON, the same reading being the window's first (R27, R33); ON, it is judged by the window (R33). A fault on an ON rail
is answered by its mode (R35 to R38): REPORT, IGNORE, RETRY within its limit, or LATCH, whose fault_action is applied
(R154, R155), DROP where no step waits on the rail, another where the engine is idle and PANEL_SNAP opens with a WAIT.
The drains that begin are stated where no condition of the rail's record is present. A waiting RAIL_ON step
completes as its rail goes ON (R40, R51) and a waiting RAIL_OFF step as its drain ends (R39, R52), the next step here a
WAIT. A qualifier that is not timing ignores an expiry, and a level the pin already has is no change (the model's
choices, log 3). -/
def Obligations.PowerGoodIsQualified : Prop :=
  ∀ (s : State) (r : Rail),
    let c := s.railCfg r
    let x := s.rails[r]
    let f := s.faults[srcRail r]
    let retries : Prop := c.faultMode = .retry ∧ ∀ m, c.retryLimit.max = some m → x.retryCount < m
    let latches : Prop := c.faultMode = .latch ∨ ∃ m, c.faultMode = .retry ∧ c.retryLimit.max = some m ∧ m ≤ x.retryCount
    let acts (ms : Nat) : Prop := (c.faultAction = .drop ∧ s.noStepOn r) ∨ s.snapReady ms
    exec (.pgPinChange r s.pins.pg[r]) s = .next s
    ∧ (∀ high : Bool, high ≠ s.pins.pg[r] → exec (.pgPinChange r high) s = .next { s with
        pins.pg := s.pins.pg.set r high
        rails :=
          if c.used = true then
            s.rails.set r
              { x with
                pgTimer :=
                  if Level.ofBool high = x.pgLevel then none else some (s.now + 1000 * c.pgDeglitchMs) }
          else s.rails })
    ∧ (x.pgTimer = none → exec (.pgDeglitchExpiry r) s = .next s)
    ∧ (x.pgTimer ≠ none →
        let x1 : RailRt := { x with pgLevel := Level.ofBool s.pins.pg[r], pgTimer := none }
        let leaves (y : RailRt) : Prop := exec (.pgDeglitchExpiry r) s = .next { s with rails := s.rails.set r y }
        let lost (y : RailRt) (latching condition : Bool) (a : FaultAction) : State :=
          ({ s with rails := s.rails.set r y } : State).occurred (srcRail r)
            { cause := .pgLost, value := x.lastMV, latching := latching, withCondition := condition, action := a }
        (x.state = .off ∨ x.state = .shed ∨ x.state = .retryWait ∨ x.state = .faulted ∨
            (x.state = .ramping ∧ (c.monitor = .both ∧ x.winHalf = false ∨ c.monitor ≠ .window ∧ s.pins.pg[r] = false)) ∨
            (x.state = .on ∧ c.monitor = .window) ∨ (x.state = .draining ∧ (c.monitor ≠ .pg ∨ s.pins.pg[r] = true)) →
          leaves x1)
        ∧ (x.state = .ramping → c.monitor = .pg ∨ (c.monitor = .both ∧ x.winHalf = true) → s.pins.pg[r] = true →
          let on : RailRt := { x1 with state := .on, timer := none, winDetector := false, pgDetector := false }
          (s.noStepOn r → leaves on)
          ∧ ∀ run ms, s.waitsOn (.railOn r) run ms →
            exec (.pgDeglitchExpiry r) s = .next (({ s with rails := s.rails.set r on } : State).passed run ms .none))
        ∧ (x.state = .draining → x.dest = .off → x.clearedInDrain = false → c.monitor = .pg → s.pins.pg[r] = false →
          let off : RailRt := { x1 with state := .off, timer := none, clearedInDrain := false }
          (s.noStepOn r → leaves off)
          ∧ ∀ run ms, s.waitsOn (.railOff r) run ms →
            exec (.pgDeglitchExpiry r) s = .next (({ s with rails := s.rails.set r off } : State).passed run ms .none))
        ∧ (x.state = .on → c.monitor ≠ .window → s.pins.pg[r] = true →
          (x.pgDetector = true → x.winDetector = false → f.state = .active → f.firstCause ≠ .none →
            exec (.pgDeglitchExpiry r) s = .next
              (({ s with rails := s.rails.set r { x1 with pgDetector := false } } : State).eased (srcRail r)))
          ∧ (x.pgDetector = true → x.winDetector = true → leaves { x1 with pgDetector := false })
          ∧ (x.pgDetector = false → leaves x1))
        ∧ (x.state = .on → c.monitor ≠ .window → s.pins.pg[r] = false → x.pgDetector = true → leaves x1)
        ∧ (x.state = .on → c.monitor ≠ .window → s.pins.pg[r] = false → x.pgDetector = false →
          (c.faultMode = .report → exec (.pgDeglitchExpiry r) s
            = .next (lost { x1 with pgDetector := true } false true .none))
          ∧ (c.faultMode = .ignore → leaves { x1 with pgDetector := true })
          ∧ (retries → c.monitor = .pg → f.condition = false → exec (.pgDeglitchExpiry r) s
            = .next (lost
                { s.drainingTo r x1 .retryWait with
                  state := .retryWait, timer := some (s.now + 1000 * c.retryMs) } false false .none))
          ∧ ∀ ms, latches → c.monitor = .pg → f.condition = false → acts ms → exec (.pgDeglitchExpiry r) s
            = .next ((lost { s.drainingTo r x1 .faulted with state := .faulted, timer := none } true false
                c.faultAction.toAction).acted (srcRail r) c.faultAction ms)))
    ∧ ∀ (code : Code) (i : Fin 15), s.scan.conv = some .slow → s.scan.pointer = i → 3 ≤ i.val → inputRail i = r →
        let mv := code.toNat * c.fullscaleMV / 4096
        let s1 := s.railRead i code mv
        let x1 : RailRt := { x with lastMV := mv }
        let leaves (y : RailRt) : Prop := exec (.slowConversion code) s = .next { s1 with rails := s.rails.set r y }
        let within : Prop := c.lowMV ≤ mv ∧ mv ≤ c.highMV
        let faulty (y : RailRt) (latching condition : Bool) (a : FaultAction) : State :=
          ({ s1 with rails := s.rails.set r y } : State).occurred (srcRail r)
            { cause := if mv < c.lowMV then .undervolt else .overvolt, value := mv, latching := latching,
              withCondition := condition, action := a }
        (c.used = false ∨ c.monitor = .pg ∨ x.state = .off ∨ x.state = .shed ∨ x.state = .retryWait
            ∨ x.state = .faulted ∨ (x.state = .ramping ∧ mv < c.lowMV)
            ∨ (x.state = .draining ∧ c.drainMV < mv) → leaves x1)
        ∧ (c.used = true → c.monitor ≠ .pg →
          (x.state = .ramping → c.lowMV ≤ mv →
            (c.monitor = .both → x.pgLevel = .low → leaves { x1 with winHalf := true })
            ∧ (c.monitor = .window ∨ x.pgLevel = .high →
              let on : RailRt :=
                { x1 with state := .on, winHalf := true, timer := none, winDetector := false, pgDetector := false }
              let goesOn (y : RailRt) : Prop :=
                (s.noStepOn r → leaves y)
                ∧ ∀ run ms, s.waitsOn (.railOn r) run ms → exec (.slowConversion code) s
                  = .next (({ s1 with rails := s.rails.set r y } : State).passed run ms .none)
              (mv ≤ c.highMV → goesOn { on with oow := 0 })
              ∧ (c.highMV < mv → x.oow + 1 < c.windowSamples → goesOn { on with oow := x.oow + 1 })))
          ∧ (x.state = .on →
            (within → x.winDetector = false → leaves { x1 with oow := 0 })
            ∧ (within → x.winDetector = true → x.pgDetector = true → leaves { x1 with oow := 0, winDetector := false })
            ∧ (within → x.winDetector = true → x.pgDetector = false → f.state = .active → f.firstCause ≠ .none →
              exec (.slowConversion code) s = .next
                (({ s1 with rails := s.rails.set r { x1 with oow := 0, winDetector := false } } : State).eased
                  (srcRail r)))
            ∧ (¬ within → x.winDetector = true → leaves x1)
            ∧ (¬ within → x.winDetector = false → x.oow + 1 < c.windowSamples → leaves { x1 with oow := x.oow + 1 })
            ∧ (¬ within → x.winDetector = false → c.windowSamples ≤ x.oow + 1 →
              let x2 : RailRt := { x1 with oow := c.windowSamples, winDetector := true }
              (c.faultMode = .report → exec (.slowConversion code) s = .next (faulty x2 false true .none))
              ∧ (c.faultMode = .ignore → leaves x2)
              ∧ (retries → f.condition = false → exec (.slowConversion code) s
                = .next (faulty (s.drainingTo r x2 .retryWait) false false .none))
              ∧ ∀ ms, latches → f.condition = false → acts ms → exec (.slowConversion code) s
                = .next ((faulty (s.drainingTo r x2 .faulted) true false c.faultAction.toAction).acted (srcRail r)
                    c.faultAction ms))))

/-- The deadline of a ramp attempt (R28, R29): below the ladder's end the rail drains to the next attempt; at it the
rail drains to FAULTED with a latching RAMP_TIMEOUT, with the rail's fault_action where no step waits (DROP, or another
with an idle engine and PANEL_SNAP opening with a WAIT: R154, R155), and with DROP and the step's miss where a RAIL_ON
step does (here passed over, the next step a WAIT). Stated for a rail whose drain does not end at once and with no
detector present. A rail that is not RAMPING ignores the expiry (the model's choice, log 3). -/
def Obligations.RampDeadlineClimbsTheLadder : Prop :=
  ∀ (s : State) (r : Rail),
    let c := s.railCfg r
    let x := s.rails[r]
    let failed (a : FaultAction) : Occurrence :=
      { cause := .rampTimeout, value := x.lastMV, latching := true, withCondition := false, action := a }
    (x.state ≠ .ramping → exec (.rampDeadlineExpiry r) s = .next s)
    ∧ (x.state = .ramping → x.winDetector = false → x.pgDetector = false → c.monitor ≠ .pg ∨ x.pgLevel = .high →
        (x.attempt < c.ladder → exec (.rampDeadlineExpiry r) s
            = .next { s with rails := s.rails.set r (s.drainingTo r x .ramp) })
        ∧ (∀ ms, c.ladder ≤ x.attempt → (c.faultAction = .drop ∧ s.noStepOn r) ∨ s.snapReady ms →
            exec (.rampDeadlineExpiry r) s
            = .next ((({ s with rails := s.rails.set r (s.drainingTo r x .faulted) } : State).occurred (srcRail r)
                (failed c.faultAction.toAction)).acted (srcRail r) c.faultAction ms))
        ∧ ∀ (run : Run) (ms : Nat), c.ladder ≤ x.attempt → s.run = some run → run.wait = .railOn r → s.waitsNext run ms →
            (s.stepOf run.plan run.current).onMiss = .goOn → exec (.rampDeadlineExpiry r) s
            = .next (({ s with
                rails := s.rails.set r (s.drainingTo r x .faulted)
                run := some (s.runWaiting run ms)
                plans := s.plans.set run.plan.idx
                  { s.plans[run.plan.idx] with excStep := run.current, excCause := .rampTimeout } } : State).occurred
              (srcRail r) (failed .drop)))

/-- The ends of a drain (R31, R32, R36, R39, R40): the drain timer's expiry records DRAIN_TIMEOUT and the rail takes its
destination; a conversion at or below drain_mV ends the drain in time. A waiting RAIL_OFF step completes in time with no
note, and late takes the note DRAIN_LATE (R52), here passed over with a WAIT next, or a FAIL miss that begins the tail
(R59), here with a WAIT. A waiting RAIL_ON step sees its rail ramp from OFF, completes with HELD as the rail takes SHED,
and misses with LATCHED, here passed over, as it reaches FAULTED (R40, R51). A drain to RAMP goes on with the next
attempt (R28; that it looks at the tier again is log 19) and one to SHED rests there while its tier is shed, and ramps
otherwise (R31, R41); a rail cleared while it drained to FAULTED meets the home test at the end (R42). Then the retry
wait's expiry: the count rises and the rail ramps from attempt 1, or takes SHED while its tier is shed. A rail in another
state ignores the expiries (the model's choice, log 3). -/
def Obligations.DrainsAndRetriesEnd : Prop :=
  ∀ (s : State) (r : Rail),
    let c := s.railCfg r
    let x := s.rails[r]
    let late : Occurrence :=
      { cause := .drainTimeout, value := x.lastMV, latching := false, withCondition := false, action := .none }
    let off : RailRt := { x with state := .off, timer := none, clearedInDrain := false }
    let shed (y : RailRt) : RailRt := { y with state := .shed, timer := none, clearedInDrain := false }
    let faulted : RailRt := { x with state := .faulted, timer := none, clearedInDrain := false }
    let rail (y : RailRt) : State := { s with rails := s.rails.set r y }
    let expires (t : State) : Prop := exec (.drainTimeout r) s = .next (t.occurred (srcRail r) late)
    let goesShed (i : Instr) (t : State → State) (y : RailRt) : Prop :=
      (s.noStepOn r → exec i s = .next (t (rail (shed y))))
      ∧ ∀ run ms, s.waitsOn (.railOn r) run ms → exec i s = .next (t ((rail (shed y)).passed run ms .held))
    let lateShed (y : RailRt) : Prop := goesShed (.drainTimeout r) (fun t => t.occurred (srcRail r) late) y
    (x.state ≠ .draining → exec (.drainTimeout r) s = .next s)
    ∧ (x.state = .draining → x.dest = .off → x.clearedInDrain = false →
        (s.noStepOn r → expires (rail off))
        ∧ (∀ (run : Run) (ms : Nat), s.waitsOn (.railOff r) run ms → s.passesOver run →
            expires ((rail off).passed run ms .drainLate))
        ∧ (∀ (run : Run) (ms : Nat), s.run = some run → run.wait = .railOff r → run.inTail = false →
            ¬ s.passesOver run → s.tailOpensWithWait run ms →
            expires { rail off with
              run := some { s.tailWaiting run .failed .drainLate ms with stepsDone := run.stepsDone + 1 } })
        ∧ (∀ run : Run, s.run = some run → run.wait = .railOn r → s.railShed r = false → s.notMetAtOnce r →
            expires (rail (s.rampingAt r x 1)))
        ∧ ∀ (code : Code) (i : Fin 15), s.scan.conv = some .slow → s.scan.pointer = i → 3 ≤ i.val → inputRail i = r →
            let mv := code.toNat * c.fullscaleMV / 4096
            let t : State := { s.railRead i code mv with rails := s.rails.set r { off with lastMV := mv } }
            c.used = true → c.monitor ≠ .pg → mv ≤ c.drainMV →
            (s.noStepOn r → exec (.slowConversion code) s = .next t)
            ∧ ∀ run ms, s.waitsOn (.railOff r) run ms → exec (.slowConversion code) s = .next (t.passed run ms .none))
    ∧ (x.state = .draining → x.dest = .off → x.clearedInDrain = true → s.noStepOn r →
        (c.home.covers s.sys = false ∨ s.run ≠ none → expires (rail off))
        ∧ (c.home.covers s.sys = true → s.run = none →
            (s.railShed r = true → expires (rail (shed x)))
            ∧ (s.railShed r = false → s.notMetAtOnce r → expires (rail (s.rampingAt r x 1)))))
    ∧ (x.state = .draining → x.dest = .faulted →
        (s.noStepOn r → expires (rail faulted))
        ∧ (∀ run ms, s.waitsOn (.railOff r) run ms → s.passesOver run →
            expires ((rail faulted).passed run ms .drainLate))
        ∧ ∀ run ms, s.waitsOn (.railOn r) run ms → s.passesOver run → expires ((rail faulted).passed run ms .latched))
    ∧ (x.state = .draining → x.dest = .retryWait →
        expires (rail { x with state := .retryWait, timer := some (s.now + 1000 * c.retryMs) }))
    ∧ (x.state = .draining → x.dest = .ramp →
        (s.railShed r = false → s.notMetAtOnce r → expires (rail (s.rampingAt r x (x.attempt + 1))))
        ∧ (s.railShed r = true → lateShed x))
    ∧ (x.state = .draining → x.dest = .shed →
        (s.railShed r = true → lateShed x)
        ∧ (s.railShed r = false → s.notMetAtOnce r → expires (rail (s.rampingAt r x 1))))
    ∧ (x.state ≠ .retryWait → exec (.retryWaitExpiry r) s = .next s)
    ∧ (x.state = .retryWait →
        let y : RailRt := { x with retryCount := satInc 255 x.retryCount }
        (s.railShed r = false → s.notMetAtOnce r → exec (.retryWaitExpiry r) s = .next (rail (s.rampingAt r y 1)))
        ∧ (s.railShed r = true → goesShed (.retryWaitExpiry r) id y))

/-! ### Plans -/

/-- The steps and the ends of plans (R49 to R60). A WAIT that runs out completes, and the next step begins: each kind of
step as it begins is told apart, the ones that stay in progress and the ones that end at once (the step after those a
WAIT). A LINE writes the plan level of its line (R53); a WAIT of 0 ends at once (R54); an AWAIT_LOCK looks at the
qualified level or starts its deadline (R55); a HANDSHAKE is SKIPPED in STANDBY and LOCKOUT and else starts its deadline
and queues OFF_PENDING (R56); a RAIL_ON asks for its rail by R40, a RAIL_OFF by R39, a running rail with no detector
present. A miss is passed over with its exception (R58) or begins the tail, here with a WAIT (R59); the same at an
AWAIT_LOCK's deadline. Where the last step ends, the plan ends DONE with its change of state (R7), PLAN_DONE before
STATE: BOARD_UP and PANEL_DOWN in BOARD_ON; PANEL_UP in PANEL_ON, where a pending PANEL_CARE is withdrawn (R62) and
supervision watches the locked link (R81); BOARD_DOWN in STANDBY, with the shutdown record written unless a forced-off is
in hand (R129); PANEL_SNAP in BOARD_ON from PANEL_ON, a pending BOARD_SNAP starting with a WAIT; BOARD_SNAP, outside
COMMITTED, in LOCKOUT under a lockout latch and else in STANDBY, the record completed (R10, R74, R157); a service plan
where it was. A failed PANEL_UP with no tail lowers the target to BOARD_ON and the end of BOARD_UP's tail lowers it to
STANDBY (R8); a failed PANEL_DOWN requests PANEL_SNAP and a failed BOARD_DOWN both snap plans, with cause PLAN_FAILED,
here with no tail and with PANEL_SNAP opening with a WAIT (R9). An expiry that finds no such step waiting has no effect
(the model's choice, log 3). -/
def Obligations.StepsEndAndPlansWithThem : Prop :=
  ∀ s : State,
    ((∀ d, s.waitOf ≠ .time d) → exec .waitStepExpiry s = .next s)
    ∧ ((∀ d, s.waitOf ≠ .lock d) → exec .awaitLockDeadlineExpiry s = .next s)
    ∧ ((∀ d, s.waitOf ≠ .handshake d) → exec .handshakeDeadlineExpiry s = .next s)
    ∧ ∀ (run : Run) (d : Nat), s.run = some run →
        let x := s.plans[run.plan.idx]
        let done (t : State) : State := t.planEnded run.plan .done x.excStep x.excCause
        (∀ ms, run.wait = .time d → s.waitsNext run ms → exec .waitStepExpiry s
          = .next { s with run := some (s.runWaiting run ms) })
        ∧ (run.wait = .time d → run.inTail = false → run.current < (s.cfg.plan run.plan).bodyLast →
          let next : Run := { run with current := run.current + 1, stepsDone := run.stepsDone + 1 }
          let c := s.stepOf next.plan next.current
          let waits (t : State) (w : Wait) : Prop :=
            exec .waitStepExpiry s = .next { t with run := some { next with wait := w } }
          let ends (t : State) (note : Cause) : Prop :=
            ∀ ms, s.waitsNext next ms → exec .waitStepExpiry s = .next (t.passed next ms note)
          let misses (cause : Cause) : Prop :=
            (s.passesOver next → ends s cause)
            ∧ ∀ ms, ¬ s.passesOver next → s.tailOpensWithWait next ms → exec .waitStepExpiry s = .next { s with
                run := some { s.tailWaiting next .failed cause ms with stepsDone := next.stepsDone + 1 } }
          (c.kind = .wait → c.value = 0 → ends s .none)
          ∧ (∀ l : LineId, c.kind = .line → c.target = l.idx.val →
            ends { s with planLevels := s.planLevels.set l.idx (if c.value = 0 then .low else .high) } .none)
          ∧ (c.kind = .awaitLock →
            (s.lockLevel = true → ends s .none)
            ∧ (s.lockLevel = false → waits s (.lock (s.now + 1000 * c.value))))
          ∧ (c.kind = .handshake →
            (s.sys = .standby ∨ s.sys = .lockout → ends { s with
                hsMemory := .skipped
                ride.slot := if run.plan.isUp || run.plan.isService then s.ride.slot else .skipped } .none)
            ∧ (s.sys ≠ .standby → s.sys ≠ .lockout →
              let cause : Cause := if run.plan.isSnap = true then run.cause else .planned
              waits { s with notices := enqueue s.notices .offPending (.offPending c.value cause) }
                (.handshake (s.now + 1000 * c.value))))
          ∧ (∀ r : Rail, c.kind = .railOn → c.target = r.val →
            let y := s.rails[r]
            let rail (z : RailRt) : State := { s with rails := s.rails.set r z }
            ((s.railCfg r).used = false → misses .unused)
            ∧ ((s.railCfg r).used = true →
              (y.state = .on → ends s .none)
              ∧ (y.state = .off → s.railShed r = true →
                  ends (rail { y with state := .shed, timer := none, clearedInDrain := false }) .held)
              ∧ (y.state = .off → s.railShed r = false → s.notMetAtOnce r → waits (rail (s.rampingAt r y 1)) (.railOn r))
              ∧ (y.state = .off → s.railShed r = false → (s.railCfg r).monitor = .pg → y.pgLevel = .high →
                  ends (rail { s.rampingAt r y 1 with
                    state := .on, timer := none, winDetector := false, pgDetector := false }) .none)
              ∧ (y.state = .shed → ends s .held)
              ∧ (y.state = .faulted → misses .latched)
              ∧ (y.state = .ramping ∨ y.state = .draining ∨ y.state = .retryWait → waits s (.railOn r))))
          ∧ (∀ r : Rail, c.kind = .railOff → c.target = r.val →
            let y : RailRt := { s.rails[r] with retryCount := 0 }
            let rail (z : RailRt) : State := { s with rails := s.rails.set r z }
            (y.state = .off ∨ y.state = .faulted → ends (rail y) .none)
            ∧ (y.state = .on ∨ y.state = .ramping → y.winDetector = false → y.pgDetector = false →
                ((s.railCfg r).monitor ≠ .pg ∨ y.pgLevel = .high →
                  waits (rail (s.drainingTo r y .off)) (.railOff r))
                ∧ ((s.railCfg r).monitor = .pg → y.pgLevel = .low →
                  ends (rail { s.drainingTo r y .off with state := .off, timer := none }) .none))
            ∧ (y.state = .draining → waits
                (rail (if y.dest = .off ∨ y.dest = .faulted then y else { y with dest := .off })) (.railOff r))
            ∧ (y.state = .shed ∨ y.state = .retryWait → ends (rail { y with state := .off, timer := none }) .none)))
        ∧ (∀ ms, run.wait = .lock d → s.waitsNext run ms → (s.stepOf run.plan run.current).onMiss = .goOn →
          exec .awaitLockDeadlineExpiry s = .next (s.passed run ms .lockTimeout))
        ∧ (∀ ms, run.wait = .lock d → run.inTail = false → run.plan.isSnap = false →
          (s.stepOf run.plan run.current).onMiss = .fail → s.tailOpensWithWait run ms →
          exec .awaitLockDeadlineExpiry s = .next { s with
            run := some { s.tailWaiting run .failed .lockTimeout ms with stepsDone := run.stepsDone + 1 } })
        ∧ (run.wait = .lock d → run.inTail = false → (s.cfg.plan run.plan).tailIndex = 0 →
          (s.stepOf run.plan run.current).onMiss = .fail → s.reqs = PendingSet.none →
          let failed (t : State) : State := t.planEnded run.plan .failed run.current .lockTimeout
          (run.plan = .panelUp → s.sys = .boardOn → s.target = .panelOn → exec .awaitLockDeadlineExpiry s
            = .next (failed { s with target := .boardOn, retArmed := false }).stateTold)
          ∧ (∀ ms, run.plan = .panelDown → s.sys = .panelOn → ({ s with run := none } : State).snapReady ms →
            exec .awaitLockDeadlineExpiry s = .next ((failed s).snapBegun .planFailed ms))
          ∧ ∀ ms, run.plan = .boardDown → s.sys = .boardOn → ({ s with run := none } : State).snapReady ms →
            exec .awaitLockDeadlineExpiry s
              = .next ((failed (s.downRecorded (run.stepsDone + 1))).snapsBegun .planFailed ms))
        ∧ (run.wait = .time d → run.plan = .boardUp → run.inTail = true → run.tailOutcome = .failed →
          (s.cfg.plan .boardUp).stepCount ≤ run.current → s.sys = .standby → s.target ≠ .standby →
          s.reqs = PendingSet.none →
          exec .waitStepExpiry s = .next
            (({ s with target := .standby, retArmed := false } : State).planEnded .boardUp .failed run.tailStep
              run.tailCause).stateTold)
        ∧ (run.wait = .time d → run.inTail = false → (s.cfg.plan run.plan).bodyLast ≤ run.current →
          s.keyHold = .idle →
          (run.plan = .boardUp ∧ s.sys = .standby ∨ run.plan = .panelDown ∧ s.sys = .panelOn
              ∨ run.plan = .panelSnap ∧ s.sys = .panelOn → s.target = .boardOn → s.reqs = PendingSet.none →
            s.pins.wake[wakeIdx .key] = false → s.dipSeen = false →
            exec .waitStepExpiry s = .next (done { s with sys := .boardOn }).stateTold)
          ∧ (∀ c, run.plan = .panelUp → s.sys = .boardOn → s.target = .panelOn →
            s.reqs = { PendingSet.none with panelCare := some c } → s.pins.wake[wakeIdx .key] = false →
            s.dipSeen = false → s.sup = .inactive → s.lockLevel = true →
            exec .waitStepExpiry s = .next
              (({ (done { s with sys := .panelOn }).stateTold with
                reqs := PendingSet.none, sup := .watching, watch := .running s.now } : State).planEnded .panelCare
                .aborted 0 .stateChanged))
          ∧ (run.plan = .boardDown → s.sys = .boardOn → s.target = .standby → s.reqs = PendingSet.none →
            exec .waitStepExpiry s
              = .next (done { s.downRecorded (run.stepsDone + 1) with sys := .standby }).stateTold)
          ∧ (∀ (c : Cause) (ms : Nat), run.plan = .panelSnap → s.target = .standby →
            s.reqs = { PendingSet.none with boardSnap := some c } → s.sup = .inactive →
            s.pins.wake[wakeIdx .key] = false → s.dipSeen = false → s.opensWithWait .boardSnap ms →
            let begun (t : State) : State :=
              { t with
                run := some (s.firstWait .boardSnap c ms)
                plans := t.plans.set 5 t.plans[5].atStart
                reqs := PendingSet.none
                pulse := .idle }
            (s.sys = .panelOn → exec .waitStepExpiry s = .next (begun (done { s with sys := .boardOn })).stateTold)
            ∧ (s.sys = .standby ∨ s.sys = .boardOn ∨ s.sys = .lockout →
              exec .waitStepExpiry s = .next (begun (done s))))
          ∧ (run.plan = .boardSnap → s.sys = .boardOn → s.target = .standby → s.reqs = PendingSet.none →
            s.ride.state ≠ .committed →
            let t := s.snapRecorded (run.stepsDone + 1)
            ((∃ i : Fin 15, s.faults[i].isLockout = true) → exec .waitStepExpiry s = .next
              (done { t with
                sys := .lockout
                retVal := none
                retArmed := false
                wakeQ := Vector.replicate 3 .idle
                planLevels := s.planLevels.set 5 .low }).stateTold)
            ∧ ((∀ i : Fin 15, s.faults[i].isLockout = false) → exec .waitStepExpiry s
              = .next (done { t with sys := .standby }).stateTold))
          ∧ (run.plan.isService = true → s.reqs = PendingSet.none → s.dipSeen = false →
            (s.sys = .standby ∧ s.target = .standby ∨ s.sys = .boardOn ∧ s.target = .boardOn →
              exec .waitStepExpiry s = .next (done s))
            ∧ (s.sys = .panelOn → s.target = .panelOn → s.sup = .inactive → s.lockLevel = true →
              exec .waitStepExpiry s = .next { done s with sup := .watching, watch := .running s.now })))

/-! ### Control lines and supervision -/

/-- The LOCK pin and supervision (R78, R82 to R85): a new level is timed and a return drops it; a level qualified while
supervision does not watch is only kept, and completes a waiting AWAIT_LOCK, here with a WAIT next; a loss in WATCHING
enters GRACE with the dark hold and LOCK_LOST; a recovery in GRACE ends it; the grace expiry in PANEL_ON lowers the
target and starts PANEL_DOWN, which ends the dark hold. An expiry that finds nothing timed has no effect, and a level
the pin already has is no change (the model's choices, log 3). -/
def Obligations.LockIsQualifiedAndSupervised : Prop :=
  ∀ s : State,
    exec (.lockPinChange s.pins.lock) s = .next s
    ∧ (∀ high : Bool, high ≠ s.pins.lock → exec (.lockPinChange high) s = .next { s with
        pins.lock := high
        lockTimer := if high = s.lockLevel then none else some (s.now + 1000 * s.cfg.lock.deglitchMs) })
    ∧ (s.lockTimer = none → exec .lockDeglitchExpiry s = .next s)
    ∧ (s.lockTimer ≠ none →
        let s1 : State := { s with lockLevel := s.pins.lock, lockTimer := none }
        ((∀ d, s.waitOf ≠ .lock d) → s.sup = .inactive ∨ s.sup = .expired → exec .lockDeglitchExpiry s = .next s1)
        ∧ (∀ run d ms, s.run = some run → run.wait = .lock d → s.pins.lock = true → s.waitsNext run ms →
            s.sup = .inactive → exec .lockDeglitchExpiry s = .next { s1 with run := some (s.runWaiting run ms) })
        ∧ ((∀ d, s.waitOf ≠ .lock d) → s.pins.lock = false → s.sup = .watching →
            ∃ t, exec .lockDeglitchExpiry s = .next t ∧ t.darkHold = true
              ∧ t = ({ s1 with
                  sup := .grace (s.now + 1000 * s.cfg.lock.graceMs)
                  watch := .stopped (s.countedUs s.watch) } : State).occurred srcLockLoss
                { cause := .lockLost, value := s.watchMs, latching := false, withCondition := true, action := .none })
        ∧ ∀ d, (∀ d', s.waitOf ≠ .lock d') → s.pins.lock = true → s.sup = .grace d →
            s.faults[srcLockLoss].state = .active → s.faults[srcLockLoss].firstCause ≠ .none →
            exec .lockDeglitchExpiry s
              = .next (({ s1 with sup := .watching, watch := .running s.now } : State).eased srcLockLoss))
    ∧ ((∀ d, s.sup ≠ .grace d) → exec .graceExpiry s = .next s)
    ∧ ∀ (d ms : Nat), s.sup = .grace d →
        (s.target = .boardOn → exec .graceExpiry s = .next { s with sup := .expired })
        ∧ (s.sys = .panelOn → s.target = .panelOn → s.run = none → s.reqs = PendingSet.none →
            s.faults[srcLockLoss].state = .active → s.faults[srcLockLoss].firstCause ≠ .none →
            s.dipSeen = false ∨ s.ride.state ≠ .normal → s.opensWithWait .panelDown ms →
            exec .graceExpiry s = .next (({ s with
              sup := .inactive
              target := .boardOn
              retArmed := false
              run := some (s.firstWait .panelDown .planned ms)
              plans := s.plans.set 2 s.plans[2].atStart } : State).stateTold.eased srcLockLoss))

/-- The driven level of a control line (R72, R75): the first of reset pulse, dark hold, lowest-numbered shed tier and
plan level that applies, the forces never to FAULT_N. The pulse timer's expiry ends the force and changes nothing else
(R77); with no pulse ACTIVE it has no effect (the model's choice, log 3). -/
def Obligations.LinesFollowTheirPriority : Prop :=
  ∀ (s : State) (l : LineId),
    let pulse : Prop := l = .sysRstN ∧ ∃ d, s.pulse = .active d
    let dark : Prop := ((∃ d, s.sup = .grace d) ∨ s.sup = .expired) ∧ (s.cfg.line l).darkMember = true ∧ l ≠ .faultN
    let shedBy (k : Fin 4) : Prop :=
      s.tiers[k].holds ≠ { ride := false, limit := false, heat := false, host := false }
        ∧ (s.cfg.tiers[k][l.idx]).member = true ∧ l ≠ .faultN
    (pulse → s.driven l = .low)
    ∧ (¬ pulse → dark → s.driven l = (s.cfg.line l).dark)
    ∧ (∀ k, ¬ pulse → ¬ dark → shedBy k → (∀ j, j < k → ¬ shedBy j) → s.driven l = (s.cfg.tiers[k][l.idx]).shedLevel)
    ∧ (¬ pulse → ¬ dark → (∀ k, ¬ shedBy k) → s.driven l = s.planLevels[l.idx])
    ∧ ((∃ d, s.pulse = .active d) → exec .resetPulseExpiry s = .next { s with pulse := .idle })
    ∧ ((∀ d, s.pulse ≠ .active d) → exec .resetPulseExpiry s = .next s)

/-! ### Scanner and budget -/

/-- A sample period (R89 to R94): the timer restarts at the Ts in force and the bus voltage conversion starts; each
completion updates its input's record with the scaled value of R91; the pair of bus codes makes one budget evaluation;
the third conversion moves the pointer on, from 14 to 2. A completion that finds its conversion not in progress, or an
expiry of a stopped timer, has no effect (the model's choice, log 3 and log 4); that the held bus voltage code is dropped
as it is used is log 36. -/
def Obligations.ScannerRunsItsPeriod : Prop :=
  ∀ (s : State) (code : Code),
    let n := code.toNat
    (s.scan.timer = none → exec .periodTimerExpiry s = .next s)
    ∧ (s.scan.timer ≠ none → exec .periodTimerExpiry s = .next { s with
        scan.tsUs := s.cfg.system.tsUs
        scan.timer := some (s.now + s.cfg.system.tsUs)
        scan.conv := some .busVoltage
        scan.vb := none })
    ∧ (s.scan.conv ≠ some .busVoltage → exec (.busVoltageConversion code) s = .next s)
    ∧ (s.scan.conv = some .busVoltage → exec (.busVoltageConversion code) s = .next { s with
        scan.records := s.scan.records.set 0 (s.scan.records[0].after n (n * 10 : Nat))
        scan.vb := some n
        scan.conv := some .busCurrent })
    ∧ (s.scan.conv ≠ some .busCurrent → exec (.busCurrentConversion code) s = .next s)
    ∧ (s.scan.conv = some .busCurrent → ∃ t, exec (.busCurrentConversion code) s = .next t
        ∧ t.scan = { s.scan with
            records := s.scan.records.set 1 (s.scan.records[1].after n (n * 2 : Nat)), conv := some .slow, vb := none }
        ∧ t.bud = { s.bud with
            record := match s.scan.vb with
              | some vb => evaluate s.cfg.budget s.bud.eReserve vb n s.bud.record.count
              | none => s.bud.record })
    ∧ (s.scan.conv ≠ some .slow → exec (.slowConversion code) s = .next s)
    ∧ ∀ i : Fin 15, s.scan.conv = some .slow → s.scan.pointer = i → 2 ≤ i.val →
        ∃ t, exec (.slowConversion code) s = .next t ∧ t.bud = s.bud
          ∧ t.scan = { s.scan with
              records := s.scan.records.set i (s.scan.records[i].after n
                (if i = 2 then ((n * 1650 / 4096 : Nat) : Int) - 400
                 else (n * (s.railCfg (inputRail i)).fullscaleMV / 4096 : Nat)))
              conv := none
              pointer := if h : i.val < 14 then ⟨i.val + 1, by omega⟩ else 2 }

/-- R101 and R102: the energy stored above the floor and the power drawn, with the bounds the rules give. -/
def Obligations.BudgetEnergyAndPower : Prop :=
  ∀ (b : BudgetCfg) (er vb ib n : Nat), b.ok = true → vb ≤ 4095 → ib ≤ 4095 →
    let d := budgetD vb b.floor
    let r := evaluate b er vb ib n
    (vb > b.floor → (d : Int) = (vb : Int) ^ 2 - (b.floor : Int) ^ 2)
    ∧ (vb ≤ b.floor → d = 0 ∧ r.eAvail = 0)
    ∧ d ≤ 16519025 ∧ budgetD 4095 500 = 16519025
    ∧ r.eAvail = b.busCap * d / 2000000 ∧ r.eAvail ≤ 53686 ∧ eAvail 6500 4095 500 = 53686
    ∧ r.pMeas = vb * ib / 50 ∧ r.pMeas ≤ 335380 ∧ pMeas 4095 4095 = 335380
    ∧ (r.pMeas ≥ b.pFloor → r.pNow = r.pMeas) ∧ (r.pMeas < b.pFloor → r.pNow = b.pFloor)
    ∧ b.pFloor ≤ r.pNow ∧ r.pNow ≠ 0

/-- The decision quantities (R103) with their bounds, and the reserve (R106): each snap plan's steps up to its step
count at their duration times their weight, in µJ, the sum rounded up to mJ above the guard, saturating. -/
def Obligations.HeadroomAndReserve : Prop :=
  (∀ (b : BudgetCfg) (er vb ib n : Nat), b.ok = true → vb ≤ 4095 → ib ≤ 4095 → er ≤ 65535 →
    let r := evaluate b er vb ib n
    r.h = (r.eAvail : Int) - (er : Int) ∧ -65535 ≤ r.h ∧ r.h ≤ 53686 ∧ (vb ≤ b.floor → r.h = -(er : Int))
      ∧ (r.h ≤ 0 → r.tCommit = 0) ∧ r.tCommit ≤ 65535
      ∧ (0 < r.h → ∀ ms : Nat, ms ≤ r.tCommit ↔ ms ≤ 65535 ∧ (ms * r.pNow : Int) ≤ r.h * 1000)
      ∧ r.vb = vb ∧ r.ib = ib ∧ r.eReserve = er ∧ r.count = satInc 65535 n)
    ∧ (∀ (t : Tables) (p : PlanId), reservePart t p
        = ((List.range (t.plan p).stepCount).map fun i =>
            let c := (t.plan p).step (i + 1)
            c.weightMW * (match c.kind with
              | .wait | .handshake => c.value
              | .railOff => if h : c.target < 12 then t.rails[c.target].drainMs else blankRail.drainMs
              | .line | .railOn | .awaitLock => 0)).sum)
    ∧ ∀ guard a b : Nat, ∃ m, eReserveOf guard a b = min 65535 (guard + m) ∧ a + b ≤ 1000 * m ∧ 1000 * m < a + b + 1000

/-! ### Shedding, limits and faults -/

/-- The thermal checks and the bus current limit (R138 to R142, R144, R145), for a tier `k` whose rail members stay as
they are; what a hold of another tier does to its rails is stated nowhere here. A temperature completion moves COOL to
WARN with the HEAT hold, WARN to COOL below the hysteresis, and leaves the state between; at the shutdown level HOT is
entered: the heat gate closes and the OVERTEMP action takes the set down, here from an idle engine with PANEL_SNAP
opening with a WAIT (fault source 0: log 34); below the shutdown hysteresis HOT ends, the condition with it, for WARN
with the hold kept or for COOL. At an evaluation, in STANDBY with an idle engine and no ride, WATCH counts a current
above soft_code, starts again at or below it, and at the Nth makes the soft event: occurrence, LIMIT hold but in
REPORT, LIMITING, LATCHED or NOTED by the mode. An episode ends after N evaluations below release_code, or count_M in
all in COUNT: the hold goes, the condition ends, WATCH; a LATCHED one keeps its hold and its latch. N above hard_code
make the hard event, whose action takes the set down, and the first at or below it ends the hard condition. -/
def Obligations.HeatAndCurrentPlaceHolds : Prop :=
  ∀ (s : State) (code : Code) (k : Fin 4), s.membersAside k →
    let n := code.toNat
    let temp : Int := ((n * 1650 / 4096 : Nat) : Int) - 400
    let c := s.cfg.thermal
    let l := s.cfg.limit
    let x := s.tiers[k]
    let hot : Occurrence :=
      { cause := .overtemp, value := temp.toNat, latching := false, withCondition := true, action := .system }
    let takenDown (t : State) (cause : ShutCause) (source : Nat) (request : Cause) (ms : Nat) : Prop :=
      t.target = .standby ∧ t.shutdown = { ShutdownRec.opened cause with source := source }
        ∧ t.run = some (s.firstWait .panelSnap request ms)
        ∧ t.reqs = { PendingSet.none with boardSnap := some request }
    (s.scan.conv = some .slow → s.scan.pointer = 2 →
        s.sys = .standby ∨ s.sys = .boardOn ∨ s.sys = .panelOn ∨ s.sys = .lockout →
      (s.thermal.state = .cool → c.tier = k → x.holds.heat = false → (c.warn : Int) ≤ temp → temp < (c.shutdown : Int) →
        ∃ t, exec (.slowConversion code) s = .next t ∧ t.thermal = { state := .warn, holdTier := some k }
          ∧ t.tiers = (s.held k { x.holds with heat := true }).tiers
          ∧ t.rails = s.rails ∧ t.faults = s.faults ∧ t.notices = enqueue s.notices .power t.powerBody)
      ∧ (s.thermal.state = .warn → s.thermal.holdTier = some k → x.holds.heat = true →
          temp < (c.warn : Int) - c.hyst → temp < (c.shutdown : Int) →
        ∃ t, exec (.slowConversion code) s = .next t ∧ t.thermal = { state := .cool, holdTier := none }
          ∧ t.tiers = (s.held k { x.holds with heat := false }).tiers
          ∧ t.rails = s.rails ∧ t.faults = s.faults ∧ t.notices = enqueue s.notices .power t.powerBody)
      ∧ ((s.thermal.state = .cool ∧ temp < (c.warn : Int)) ∨
            (s.thermal.state = .warn ∧ (c.warn : Int) - c.hyst ≤ temp) → temp < (c.shutdown : Int) →
        ∃ t, exec (.slowConversion code) s = .next t ∧ { t with scan := s.scan } = s)
      ∧ (s.thermal.state = .hot → (c.shutdown : Int) - c.hyst ≤ temp →
        ∃ t, exec (.slowConversion code) s = .next t ∧ { t with scan := s.scan } = s)
      ∧ (∀ ms, (c.shutdown : Int) ≤ temp → s.snapReady ms →
          (s.thermal.state = .cool ∧ c.tier = k ∧ x.holds.heat = false)
            ∨ (s.thermal.state = .warn ∧ s.thermal.holdTier = some k ∧ x.holds.heat = true) →
        ∃ t, exec (.slowConversion code) s = .next t ∧ t.thermal = { state := .hot, holdTier := some k }
          ∧ t.heatOpen = false ∧ t.gateOpen = false ∧ t.tiers = (s.held k { x.holds with heat := true }).tiers
          ∧ t.faults = s.faults.set srcOvertemp (s.faults[srcOvertemp].occur s.sys hot)
          ∧ takenDown t .overtemp 0 .overtemp ms)
      ∧ (s.thermal.state = .hot → temp < (c.shutdown : Int) - c.hyst → s.thermal.holdTier = some k →
          x.holds.heat = true → s.retArmed = false → ({ s with thermal.state := .cool } : State).still →
        ∃ t, exec (.slowConversion code) s = .next t ∧ t.heatOpen = true ∧ t.target = s.target ∧ t.run = s.run
          ∧ t.faults = s.faults.set srcOvertemp { s.faults[srcOvertemp] with condition := false }
          ∧ ((c.warn : Int) - c.hyst ≤ temp → t.thermal = { state := .warn, holdTier := some k } ∧ t.tiers = s.tiers)
          ∧ (temp < (c.warn : Int) - c.hyst → t.thermal = { state := .cool, holdTier := none }
            ∧ t.tiers = (s.held k { x.holds with heat := false }).tiers)))
    ∧ (s.scan.conv = some .busCurrent → s.scan.vb ≠ none → s.sys = .standby → s.run = none → s.ride.state = .normal →
        l.mode ≠ .off →
      let y := s.limit
      let f := s.faults[srcBusCurrent]
      let soft : Occurrence :=
        { cause := .softLimit, value := n, latching := decide (l.mode = .latch), withCondition := true, action := .none }
      let hard : Occurrence :=
        { cause := .hardLimit, value := n, latching := false, withCondition := true, action := .system }
      let quiet (t : State) (z : LimitRt) : Prop :=
        t.limit = z ∧ t.tiers = s.tiers ∧ t.faults = s.faults ∧ t.rails = s.rails
      ∃ t, exec (.busCurrentConversion code) s = .next t
        ∧ (n ≤ l.hardCode → y.hardPresent = false →
          let y0 : LimitRt := { y with hardCount := 0 }
          let closed : LimitRt :=
            { y0 with state := .watch, countMode := false, softCount := 0, releaseCount := 0, softPresent := false,
                      holdTier := none }
          let ended (z : LimitRt) : Prop :=
            t.limit = z ∧ t.faults = s.faults.set srcBusCurrent { f with condition := false } ∧ t.rails = s.rails
          (y.state = .watch →
            (n ≤ l.softCode → quiet t { y0 with softCount := 0 })
            ∧ (l.softCode < n → y.softCount + 1 < l.samples → quiet t { y0 with softCount := y.softCount + 1 })
            ∧ (l.softCode < n → l.samples ≤ y.softCount + 1 →
              let y1 : LimitRt := { y0 with softCount := 0, releaseCount := 0, softPresent := true }
              (l.mode = .report ∨ l.tier = k →
                  t.faults = s.faults.set srcBusCurrent (f.occur .standby soft) ∧ t.rails = s.rails)
                ∧ (l.mode = .report → t.limit = { y1 with state := .noted } ∧ t.tiers = s.tiers)
                ∧ (l.mode ≠ .report → l.tier = k → x.holds.limit = false →
                  t.tiers = (s.held k { x.holds with limit := true }).tiers
                    ∧ (l.mode = .latch → t.limit = { y1 with state := .latched, holdTier := some k })
                    ∧ (l.mode = .level → t.limit = { y1 with
                        state := .limiting, countMode := false, holdTier := some k })
                    ∧ (l.mode = .count → t.limit = { y1 with
                        state := .limiting, countMode := true, holdTier := some k }))))
          ∧ (y.state = .limiting ∨ y.state = .noted →
            let r := y.releaseCount + 1
            let counts : Prop := y.countMode = true ∨ n < l.releaseCode
            let last : Nat := if y.countMode = true then l.countM else l.samples
            (¬ counts → quiet t { y0 with releaseCount := 0 })
            ∧ (counts → r < last → quiet t { y0 with releaseCount := r })
            ∧ (counts → last ≤ r → y.state = .noted → y.holdTier = none → ended closed ∧ t.tiers = s.tiers)
            ∧ (counts → last ≤ r → y.state = .limiting → y.holdTier = some k → x.holds.limit = true →
              ended closed ∧ t.tiers = (s.held k { x.holds with limit := false }).tiers))
          ∧ (y.state = .latched →
            let r := y.releaseCount + 1
            (y.softPresent = false → quiet t y0)
            ∧ (y.softPresent = true → l.releaseCode ≤ n → quiet t { y0 with releaseCount := 0 })
            ∧ (y.softPresent = true → n < l.releaseCode → r < l.samples → quiet t { y0 with releaseCount := r })
            ∧ (y.softPresent = true → n < l.releaseCode → l.samples ≤ r →
              ended { y0 with releaseCount := r, softPresent := false } ∧ t.tiers = s.tiers)))
        ∧ (y.state = .limiting ∨ y.state = .noted → y.countMode = false → l.releaseCode ≤ n →
          let y0 : LimitRt := { y with releaseCount := 0 }
          (l.hardCode < n → y.hardCount + 1 < l.samples → quiet t { y0 with hardCount := y.hardCount + 1 })
          ∧ (l.hardCode < n → l.samples ≤ y.hardCount → quiet t y0)
          ∧ (∀ ms, l.hardCode < n → y.hardCount < l.samples → l.samples ≤ y.hardCount + 1 → s.reqs = PendingSet.none →
            s.sup = .inactive → s.opensWithWait .panelSnap ms →
            t.limit = { y0 with hardCount := l.samples, hardPresent := true } ∧ t.tiers = s.tiers
              ∧ t.faults = s.faults.set srcBusCurrent (f.occur .standby hard) ∧ takenDown t .fault 12 .fault ms)
          ∧ (n ≤ l.hardCode → y.hardPresent = true →
            t.limit = { y0 with hardCount := 0, hardPresent := false } ∧ t.tiers = s.tiers
              ∧ t.faults = if y.softPresent = true then s.faults
                  else s.faults.set srcBusCurrent { f with condition := false })))

/-- A fault record under the reports of R149 and R150: what an occurrence changes, what the end of the condition
changes, and that the derived state of R148 moves as the table of R149 says. -/
def Obligations.FaultRecordsFollowTheTable : Prop :=
  ∀ (f : FaultRec) (sys : SysState) (o : Occurrence), o.cause ≠ .none →
    let g := f.occur sys o
    let ended : FaultRec := { f with condition := false }
    (g.latch = true ↔ f.latch = true ∨ o.latching = true)
    ∧ (g.condition = true ↔ f.condition = true ∨ o.withCondition = true)
    ∧ (f.occurrences < 255 → g.occurrences = f.occurrences + 1) ∧ (f.occurrences = 255 → g.occurrences = 255)
    ∧ g.latestCause = o.cause
    ∧ (f.state = .clear → g.firstCause = o.cause ∧ g.firstValue = o.value ∧ g.firstState = some sys)
    ∧ (f.state ≠ .clear → g.firstCause = f.firstCause ∧ g.firstValue = f.firstValue ∧ g.firstState = f.firstState)
    ∧ (o.action ≠ .none → g.action = o.action) ∧ (o.action = .none → g.action = f.action)
    ∧ (o.latching = true → g.state = .latched)
    ∧ (f.state = .latched → g.state = .latched ∧ ended.state = .latched)
    ∧ (o.latching = false → o.withCondition = true → f.state ≠ .latched → g.state = .active)
    ∧ (o.latching = false → o.withCondition = false → f.state = .clear → g.state = .sticky)
    ∧ (o.latching = false → o.withCondition = false → f.state = .active → g.state = .active)
    ∧ (o.latching = false → o.withCondition = false → f.state = .sticky → g.state = .sticky)
    ∧ (f.state = .active → f.firstCause ≠ .none → ended.state = .sticky)
    ∧ (f.condition = false → ended = f)

end
end

