-- ==== Sys2Proof/Laws/State.lean ====
section
/-! SUPPORT. One lemma for each field and each named update of the event: what the update leaves in the field. Later
proofs cite these and unfold no record update. -/

namespace Sys2Proof.Machine

variable (e : Ev)


/-! ### setRail -/

@[simp] theorem Ev.setRail_sys (r : Rail) (f : RailRt → RailRt) : (e.setRail r f).sys = e.sys := rfl
@[simp] theorem Ev.setRail_target (r : Rail) (f : RailRt → RailRt) : (e.setRail r f).target = e.target := rfl
@[simp] theorem Ev.setRail_retVal (r : Rail) (f : RailRt → RailRt) : (e.setRail r f).retVal = e.retVal := rfl
@[simp] theorem Ev.setRail_retArmed (r : Rail) (f : RailRt → RailRt) : (e.setRail r f).retArmed = e.retArmed := rfl
@[simp] theorem Ev.setRail_wakeQ (r : Rail) (f : RailRt → RailRt) : (e.setRail r f).wakeQ = e.wakeQ := rfl
@[simp] theorem Ev.setRail_keyHold (r : Rail) (f : RailRt → RailRt) : (e.setRail r f).keyHold = e.keyHold := rfl
@[simp] theorem Ev.setRail_rails (r : Rail) (f : RailRt → RailRt) :
    (e.setRail r f).rails = e.rails.set r (f e.rails[r]) := rfl
@[simp] theorem Ev.setRail_plans (r : Rail) (f : RailRt → RailRt) : (e.setRail r f).plans = e.plans := rfl
@[simp] theorem Ev.setRail_run (r : Rail) (f : RailRt → RailRt) : (e.setRail r f).run = e.run := rfl
@[simp] theorem Ev.setRail_reqs (r : Rail) (f : RailRt → RailRt) : (e.setRail r f).reqs = e.reqs := rfl
@[simp] theorem Ev.setRail_hsMemory (r : Rail) (f : RailRt → RailRt) : (e.setRail r f).hsMemory = e.hsMemory := rfl
@[simp] theorem Ev.setRail_planLevels (r : Rail) (f : RailRt → RailRt) :
    (e.setRail r f).planLevels = e.planLevels := rfl
@[simp] theorem Ev.setRail_pulse (r : Rail) (f : RailRt → RailRt) : (e.setRail r f).pulse = e.pulse := rfl
@[simp] theorem Ev.setRail_sup (r : Rail) (f : RailRt → RailRt) : (e.setRail r f).sup = e.sup := rfl
@[simp] theorem Ev.setRail_lockLevel (r : Rail) (f : RailRt → RailRt) : (e.setRail r f).lockLevel = e.lockLevel := rfl
@[simp] theorem Ev.setRail_lockTimer (r : Rail) (f : RailRt → RailRt) : (e.setRail r f).lockTimer = e.lockTimer := rfl
@[simp] theorem Ev.setRail_watch (r : Rail) (f : RailRt → RailRt) : (e.setRail r f).watch = e.watch := rfl
@[simp] theorem Ev.setRail_scan (r : Rail) (f : RailRt → RailRt) : (e.setRail r f).scan = e.scan := rfl
@[simp] theorem Ev.setRail_bud (r : Rail) (f : RailRt → RailRt) : (e.setRail r f).bud = e.bud := rfl
@[simp] theorem Ev.setRail_ride (r : Rail) (f : RailRt → RailRt) : (e.setRail r f).ride = e.ride := rfl
@[simp] theorem Ev.setRail_shutdown (r : Rail) (f : RailRt → RailRt) : (e.setRail r f).shutdown = e.shutdown := rfl
@[simp] theorem Ev.setRail_tiers (r : Rail) (f : RailRt → RailRt) : (e.setRail r f).tiers = e.tiers := rfl
@[simp] theorem Ev.setRail_limit (r : Rail) (f : RailRt → RailRt) : (e.setRail r f).limit = e.limit := rfl
@[simp] theorem Ev.setRail_thermal (r : Rail) (f : RailRt → RailRt) : (e.setRail r f).thermal = e.thermal := rfl
@[simp] theorem Ev.setRail_faults (r : Rail) (f : RailRt → RailRt) : (e.setRail r f).faults = e.faults := rfl
@[simp] theorem Ev.setRail_link (r : Rail) (f : RailRt → RailRt) : (e.setRail r f).link = e.link := rfl
@[simp] theorem Ev.setRail_notices (r : Rail) (f : RailRt → RailRt) : (e.setRail r f).notices = e.notices := rfl
@[simp] theorem Ev.setRail_tables (r : Rail) (f : RailRt → RailRt) : (e.setRail r f).tables = e.tables := rfl
@[simp] theorem Ev.setRail_store (r : Rail) (f : RailRt → RailRt) : (e.setRail r f).store = e.store := rfl
@[simp] theorem Ev.setRail_pins (r : Rail) (f : RailRt → RailRt) : (e.setRail r f).pins = e.pins := rfl
@[simp] theorem Ev.setRail_now (r : Rail) (f : RailRt → RailRt) : (e.setRail r f).now = e.now := rfl
@[simp] theorem Ev.setRail_pending (r : Rail) (f : RailRt → RailRt) : (e.setRail r f).pending = e.pending := rfl
@[simp] theorem Ev.setRail_ans (r : Rail) (f : RailRt → RailRt) : (e.setRail r f).ans = e.ans := rfl
@[simp] theorem Ev.setRail_act (r : Rail) (f : RailRt → RailRt) : (e.setRail r f).act = e.act := rfl
@[simp] theorem Ev.setRail_tgtChanged (r : Rail) (f : RailRt → RailRt) :
    (e.setRail r f).tgtChanged = e.tgtChanged := rfl
@[simp] theorem Ev.setRail_arb (r : Rail) (f : RailRt → RailRt) : (e.setRail r f).arb = e.arb := rfl
@[simp] theorem Ev.setRail_planEnded (r : Rail) (f : RailRt → RailRt) : (e.setRail r f).planEnded = e.planEnded := rfl
@[simp] theorem Ev.setRail_stDirty (r : Rail) (f : RailRt → RailRt) : (e.setRail r f).stDirty = e.stDirty := rfl
@[simp] theorem Ev.setRail_pwDirty (r : Rail) (f : RailRt → RailRt) : (e.setRail r f).pwDirty = e.pwDirty := rfl
@[simp] theorem Ev.setRail_cfg (r : Rail) (f : RailRt → RailRt) : (e.setRail r f).cfg = e.cfg := rfl
@[simp] theorem Ev.setRail_waitOf (r : Rail) (f : RailRt → RailRt) : (e.setRail r f).waitOf = e.waitOf := rfl
@[simp] theorem Ev.setRail_runningPlan (r : Rail) (f : RailRt → RailRt) : (e.setRail r f).runningPlan = e.runningPlan := rfl

/-! ### setPlan -/

@[simp] theorem Ev.setPlan_sys (p : PlanId) (f : PlanRt → PlanRt) : (e.setPlan p f).sys = e.sys := rfl
@[simp] theorem Ev.setPlan_target (p : PlanId) (f : PlanRt → PlanRt) : (e.setPlan p f).target = e.target := rfl
@[simp] theorem Ev.setPlan_retVal (p : PlanId) (f : PlanRt → PlanRt) : (e.setPlan p f).retVal = e.retVal := rfl
@[simp] theorem Ev.setPlan_retArmed (p : PlanId) (f : PlanRt → PlanRt) : (e.setPlan p f).retArmed = e.retArmed := rfl
@[simp] theorem Ev.setPlan_wakeQ (p : PlanId) (f : PlanRt → PlanRt) : (e.setPlan p f).wakeQ = e.wakeQ := rfl
@[simp] theorem Ev.setPlan_keyHold (p : PlanId) (f : PlanRt → PlanRt) : (e.setPlan p f).keyHold = e.keyHold := rfl
@[simp] theorem Ev.setPlan_rails (p : PlanId) (f : PlanRt → PlanRt) : (e.setPlan p f).rails = e.rails := rfl
@[simp] theorem Ev.setPlan_plans (p : PlanId) (f : PlanRt → PlanRt) :
    (e.setPlan p f).plans = e.plans.set p.idx (f e.plans[p.idx]) := rfl
@[simp] theorem Ev.setPlan_run (p : PlanId) (f : PlanRt → PlanRt) : (e.setPlan p f).run = e.run := rfl
@[simp] theorem Ev.setPlan_reqs (p : PlanId) (f : PlanRt → PlanRt) : (e.setPlan p f).reqs = e.reqs := rfl
@[simp] theorem Ev.setPlan_hsMemory (p : PlanId) (f : PlanRt → PlanRt) : (e.setPlan p f).hsMemory = e.hsMemory := rfl
@[simp] theorem Ev.setPlan_planLevels (p : PlanId) (f : PlanRt → PlanRt) :
    (e.setPlan p f).planLevels = e.planLevels := rfl
@[simp] theorem Ev.setPlan_pulse (p : PlanId) (f : PlanRt → PlanRt) : (e.setPlan p f).pulse = e.pulse := rfl
@[simp] theorem Ev.setPlan_sup (p : PlanId) (f : PlanRt → PlanRt) : (e.setPlan p f).sup = e.sup := rfl
@[simp] theorem Ev.setPlan_lockLevel (p : PlanId) (f : PlanRt → PlanRt) :
    (e.setPlan p f).lockLevel = e.lockLevel := rfl
@[simp] theorem Ev.setPlan_lockTimer (p : PlanId) (f : PlanRt → PlanRt) :
    (e.setPlan p f).lockTimer = e.lockTimer := rfl
@[simp] theorem Ev.setPlan_watch (p : PlanId) (f : PlanRt → PlanRt) : (e.setPlan p f).watch = e.watch := rfl
@[simp] theorem Ev.setPlan_scan (p : PlanId) (f : PlanRt → PlanRt) : (e.setPlan p f).scan = e.scan := rfl
@[simp] theorem Ev.setPlan_bud (p : PlanId) (f : PlanRt → PlanRt) : (e.setPlan p f).bud = e.bud := rfl
@[simp] theorem Ev.setPlan_ride (p : PlanId) (f : PlanRt → PlanRt) : (e.setPlan p f).ride = e.ride := rfl
@[simp] theorem Ev.setPlan_shutdown (p : PlanId) (f : PlanRt → PlanRt) : (e.setPlan p f).shutdown = e.shutdown := rfl
@[simp] theorem Ev.setPlan_tiers (p : PlanId) (f : PlanRt → PlanRt) : (e.setPlan p f).tiers = e.tiers := rfl
@[simp] theorem Ev.setPlan_limit (p : PlanId) (f : PlanRt → PlanRt) : (e.setPlan p f).limit = e.limit := rfl
@[simp] theorem Ev.setPlan_thermal (p : PlanId) (f : PlanRt → PlanRt) : (e.setPlan p f).thermal = e.thermal := rfl
@[simp] theorem Ev.setPlan_faults (p : PlanId) (f : PlanRt → PlanRt) : (e.setPlan p f).faults = e.faults := rfl
@[simp] theorem Ev.setPlan_link (p : PlanId) (f : PlanRt → PlanRt) : (e.setPlan p f).link = e.link := rfl
@[simp] theorem Ev.setPlan_notices (p : PlanId) (f : PlanRt → PlanRt) : (e.setPlan p f).notices = e.notices := rfl
@[simp] theorem Ev.setPlan_tables (p : PlanId) (f : PlanRt → PlanRt) : (e.setPlan p f).tables = e.tables := rfl
@[simp] theorem Ev.setPlan_store (p : PlanId) (f : PlanRt → PlanRt) : (e.setPlan p f).store = e.store := rfl
@[simp] theorem Ev.setPlan_pins (p : PlanId) (f : PlanRt → PlanRt) : (e.setPlan p f).pins = e.pins := rfl
@[simp] theorem Ev.setPlan_now (p : PlanId) (f : PlanRt → PlanRt) : (e.setPlan p f).now = e.now := rfl
@[simp] theorem Ev.setPlan_pending (p : PlanId) (f : PlanRt → PlanRt) : (e.setPlan p f).pending = e.pending := rfl
@[simp] theorem Ev.setPlan_ans (p : PlanId) (f : PlanRt → PlanRt) : (e.setPlan p f).ans = e.ans := rfl
@[simp] theorem Ev.setPlan_act (p : PlanId) (f : PlanRt → PlanRt) : (e.setPlan p f).act = e.act := rfl
@[simp] theorem Ev.setPlan_tgtChanged (p : PlanId) (f : PlanRt → PlanRt) :
    (e.setPlan p f).tgtChanged = e.tgtChanged := rfl
@[simp] theorem Ev.setPlan_arb (p : PlanId) (f : PlanRt → PlanRt) : (e.setPlan p f).arb = e.arb := rfl
@[simp] theorem Ev.setPlan_planEnded (p : PlanId) (f : PlanRt → PlanRt) :
    (e.setPlan p f).planEnded = e.planEnded := rfl
@[simp] theorem Ev.setPlan_stDirty (p : PlanId) (f : PlanRt → PlanRt) : (e.setPlan p f).stDirty = e.stDirty := rfl
@[simp] theorem Ev.setPlan_pwDirty (p : PlanId) (f : PlanRt → PlanRt) : (e.setPlan p f).pwDirty = e.pwDirty := rfl
@[simp] theorem Ev.setPlan_cfg (p : PlanId) (f : PlanRt → PlanRt) : (e.setPlan p f).cfg = e.cfg := rfl
@[simp] theorem Ev.setPlan_waitOf (p : PlanId) (f : PlanRt → PlanRt) : (e.setPlan p f).waitOf = e.waitOf := rfl
@[simp] theorem Ev.setPlan_runningPlan (p : PlanId) (f : PlanRt → PlanRt) : (e.setPlan p f).runningPlan = e.runningPlan := rfl

/-! ### setTier -/

@[simp] theorem Ev.setTier_sys (k : Fin 4) (f : TierRt → TierRt) : (e.setTier k f).sys = e.sys := rfl
@[simp] theorem Ev.setTier_target (k : Fin 4) (f : TierRt → TierRt) : (e.setTier k f).target = e.target := rfl
@[simp] theorem Ev.setTier_retVal (k : Fin 4) (f : TierRt → TierRt) : (e.setTier k f).retVal = e.retVal := rfl
@[simp] theorem Ev.setTier_retArmed (k : Fin 4) (f : TierRt → TierRt) : (e.setTier k f).retArmed = e.retArmed := rfl
@[simp] theorem Ev.setTier_wakeQ (k : Fin 4) (f : TierRt → TierRt) : (e.setTier k f).wakeQ = e.wakeQ := rfl
@[simp] theorem Ev.setTier_keyHold (k : Fin 4) (f : TierRt → TierRt) : (e.setTier k f).keyHold = e.keyHold := rfl
@[simp] theorem Ev.setTier_rails (k : Fin 4) (f : TierRt → TierRt) : (e.setTier k f).rails = e.rails := rfl
@[simp] theorem Ev.setTier_plans (k : Fin 4) (f : TierRt → TierRt) : (e.setTier k f).plans = e.plans := rfl
@[simp] theorem Ev.setTier_run (k : Fin 4) (f : TierRt → TierRt) : (e.setTier k f).run = e.run := rfl
@[simp] theorem Ev.setTier_reqs (k : Fin 4) (f : TierRt → TierRt) : (e.setTier k f).reqs = e.reqs := rfl
@[simp] theorem Ev.setTier_hsMemory (k : Fin 4) (f : TierRt → TierRt) : (e.setTier k f).hsMemory = e.hsMemory := rfl
@[simp] theorem Ev.setTier_planLevels (k : Fin 4) (f : TierRt → TierRt) :
    (e.setTier k f).planLevels = e.planLevels := rfl
@[simp] theorem Ev.setTier_pulse (k : Fin 4) (f : TierRt → TierRt) : (e.setTier k f).pulse = e.pulse := rfl
@[simp] theorem Ev.setTier_sup (k : Fin 4) (f : TierRt → TierRt) : (e.setTier k f).sup = e.sup := rfl
@[simp] theorem Ev.setTier_lockLevel (k : Fin 4) (f : TierRt → TierRt) :
    (e.setTier k f).lockLevel = e.lockLevel := rfl
@[simp] theorem Ev.setTier_lockTimer (k : Fin 4) (f : TierRt → TierRt) :
    (e.setTier k f).lockTimer = e.lockTimer := rfl
@[simp] theorem Ev.setTier_watch (k : Fin 4) (f : TierRt → TierRt) : (e.setTier k f).watch = e.watch := rfl
@[simp] theorem Ev.setTier_scan (k : Fin 4) (f : TierRt → TierRt) : (e.setTier k f).scan = e.scan := rfl
@[simp] theorem Ev.setTier_bud (k : Fin 4) (f : TierRt → TierRt) : (e.setTier k f).bud = e.bud := rfl
@[simp] theorem Ev.setTier_ride (k : Fin 4) (f : TierRt → TierRt) : (e.setTier k f).ride = e.ride := rfl
@[simp] theorem Ev.setTier_shutdown (k : Fin 4) (f : TierRt → TierRt) : (e.setTier k f).shutdown = e.shutdown := rfl
@[simp] theorem Ev.setTier_tiers (k : Fin 4) (f : TierRt → TierRt) :
    (e.setTier k f).tiers = e.tiers.set k (f e.tiers[k]) := rfl
@[simp] theorem Ev.setTier_limit (k : Fin 4) (f : TierRt → TierRt) : (e.setTier k f).limit = e.limit := rfl
@[simp] theorem Ev.setTier_thermal (k : Fin 4) (f : TierRt → TierRt) : (e.setTier k f).thermal = e.thermal := rfl
@[simp] theorem Ev.setTier_faults (k : Fin 4) (f : TierRt → TierRt) : (e.setTier k f).faults = e.faults := rfl
@[simp] theorem Ev.setTier_link (k : Fin 4) (f : TierRt → TierRt) : (e.setTier k f).link = e.link := rfl
@[simp] theorem Ev.setTier_notices (k : Fin 4) (f : TierRt → TierRt) : (e.setTier k f).notices = e.notices := rfl
@[simp] theorem Ev.setTier_tables (k : Fin 4) (f : TierRt → TierRt) : (e.setTier k f).tables = e.tables := rfl
@[simp] theorem Ev.setTier_store (k : Fin 4) (f : TierRt → TierRt) : (e.setTier k f).store = e.store := rfl
@[simp] theorem Ev.setTier_pins (k : Fin 4) (f : TierRt → TierRt) : (e.setTier k f).pins = e.pins := rfl
@[simp] theorem Ev.setTier_now (k : Fin 4) (f : TierRt → TierRt) : (e.setTier k f).now = e.now := rfl
@[simp] theorem Ev.setTier_pending (k : Fin 4) (f : TierRt → TierRt) : (e.setTier k f).pending = e.pending := rfl
@[simp] theorem Ev.setTier_ans (k : Fin 4) (f : TierRt → TierRt) : (e.setTier k f).ans = e.ans := rfl
@[simp] theorem Ev.setTier_act (k : Fin 4) (f : TierRt → TierRt) : (e.setTier k f).act = e.act := rfl
@[simp] theorem Ev.setTier_tgtChanged (k : Fin 4) (f : TierRt → TierRt) :
    (e.setTier k f).tgtChanged = e.tgtChanged := rfl
@[simp] theorem Ev.setTier_arb (k : Fin 4) (f : TierRt → TierRt) : (e.setTier k f).arb = e.arb := rfl
@[simp] theorem Ev.setTier_planEnded (k : Fin 4) (f : TierRt → TierRt) :
    (e.setTier k f).planEnded = e.planEnded := rfl
@[simp] theorem Ev.setTier_stDirty (k : Fin 4) (f : TierRt → TierRt) : (e.setTier k f).stDirty = e.stDirty := rfl
@[simp] theorem Ev.setTier_pwDirty (k : Fin 4) (f : TierRt → TierRt) : (e.setTier k f).pwDirty = e.pwDirty := rfl
@[simp] theorem Ev.setTier_cfg (k : Fin 4) (f : TierRt → TierRt) : (e.setTier k f).cfg = e.cfg := rfl
@[simp] theorem Ev.setTier_waitOf (k : Fin 4) (f : TierRt → TierRt) : (e.setTier k f).waitOf = e.waitOf := rfl
@[simp] theorem Ev.setTier_runningPlan (k : Fin 4) (f : TierRt → TierRt) : (e.setTier k f).runningPlan = e.runningPlan := rfl

/-! ### setFault -/

@[simp] theorem Ev.setFault_sys (i : Fin 15) (f : FaultRec → FaultRec) : (e.setFault i f).sys = e.sys := rfl
@[simp] theorem Ev.setFault_target (i : Fin 15) (f : FaultRec → FaultRec) : (e.setFault i f).target = e.target := rfl
@[simp] theorem Ev.setFault_retVal (i : Fin 15) (f : FaultRec → FaultRec) : (e.setFault i f).retVal = e.retVal := rfl
@[simp] theorem Ev.setFault_retArmed (i : Fin 15) (f : FaultRec → FaultRec) :
    (e.setFault i f).retArmed = e.retArmed := rfl
@[simp] theorem Ev.setFault_wakeQ (i : Fin 15) (f : FaultRec → FaultRec) : (e.setFault i f).wakeQ = e.wakeQ := rfl
@[simp] theorem Ev.setFault_keyHold (i : Fin 15) (f : FaultRec → FaultRec) :
    (e.setFault i f).keyHold = e.keyHold := rfl
@[simp] theorem Ev.setFault_rails (i : Fin 15) (f : FaultRec → FaultRec) : (e.setFault i f).rails = e.rails := rfl
@[simp] theorem Ev.setFault_plans (i : Fin 15) (f : FaultRec → FaultRec) : (e.setFault i f).plans = e.plans := rfl
@[simp] theorem Ev.setFault_run (i : Fin 15) (f : FaultRec → FaultRec) : (e.setFault i f).run = e.run := rfl
@[simp] theorem Ev.setFault_reqs (i : Fin 15) (f : FaultRec → FaultRec) : (e.setFault i f).reqs = e.reqs := rfl
@[simp] theorem Ev.setFault_hsMemory (i : Fin 15) (f : FaultRec → FaultRec) :
    (e.setFault i f).hsMemory = e.hsMemory := rfl
@[simp] theorem Ev.setFault_planLevels (i : Fin 15) (f : FaultRec → FaultRec) :
    (e.setFault i f).planLevels = e.planLevels := rfl
@[simp] theorem Ev.setFault_pulse (i : Fin 15) (f : FaultRec → FaultRec) : (e.setFault i f).pulse = e.pulse := rfl
@[simp] theorem Ev.setFault_sup (i : Fin 15) (f : FaultRec → FaultRec) : (e.setFault i f).sup = e.sup := rfl
@[simp] theorem Ev.setFault_lockLevel (i : Fin 15) (f : FaultRec → FaultRec) :
    (e.setFault i f).lockLevel = e.lockLevel := rfl
@[simp] theorem Ev.setFault_lockTimer (i : Fin 15) (f : FaultRec → FaultRec) :
    (e.setFault i f).lockTimer = e.lockTimer := rfl
@[simp] theorem Ev.setFault_watch (i : Fin 15) (f : FaultRec → FaultRec) : (e.setFault i f).watch = e.watch := rfl
@[simp] theorem Ev.setFault_scan (i : Fin 15) (f : FaultRec → FaultRec) : (e.setFault i f).scan = e.scan := rfl
@[simp] theorem Ev.setFault_bud (i : Fin 15) (f : FaultRec → FaultRec) : (e.setFault i f).bud = e.bud := rfl
@[simp] theorem Ev.setFault_ride (i : Fin 15) (f : FaultRec → FaultRec) : (e.setFault i f).ride = e.ride := rfl
@[simp] theorem Ev.setFault_shutdown (i : Fin 15) (f : FaultRec → FaultRec) :
    (e.setFault i f).shutdown = e.shutdown := rfl
@[simp] theorem Ev.setFault_tiers (i : Fin 15) (f : FaultRec → FaultRec) : (e.setFault i f).tiers = e.tiers := rfl
@[simp] theorem Ev.setFault_limit (i : Fin 15) (f : FaultRec → FaultRec) : (e.setFault i f).limit = e.limit := rfl
@[simp] theorem Ev.setFault_thermal (i : Fin 15) (f : FaultRec → FaultRec) :
    (e.setFault i f).thermal = e.thermal := rfl
@[simp] theorem Ev.setFault_faults (i : Fin 15) (f : FaultRec → FaultRec) :
    (e.setFault i f).faults = e.faults.set i (f e.faults[i]) := rfl
@[simp] theorem Ev.setFault_link (i : Fin 15) (f : FaultRec → FaultRec) : (e.setFault i f).link = e.link := rfl
@[simp] theorem Ev.setFault_notices (i : Fin 15) (f : FaultRec → FaultRec) :
    (e.setFault i f).notices = e.notices := rfl
@[simp] theorem Ev.setFault_tables (i : Fin 15) (f : FaultRec → FaultRec) : (e.setFault i f).tables = e.tables := rfl
@[simp] theorem Ev.setFault_store (i : Fin 15) (f : FaultRec → FaultRec) : (e.setFault i f).store = e.store := rfl
@[simp] theorem Ev.setFault_pins (i : Fin 15) (f : FaultRec → FaultRec) : (e.setFault i f).pins = e.pins := rfl
@[simp] theorem Ev.setFault_now (i : Fin 15) (f : FaultRec → FaultRec) : (e.setFault i f).now = e.now := rfl
@[simp] theorem Ev.setFault_pending (i : Fin 15) (f : FaultRec → FaultRec) :
    (e.setFault i f).pending = e.pending := rfl
@[simp] theorem Ev.setFault_ans (i : Fin 15) (f : FaultRec → FaultRec) : (e.setFault i f).ans = e.ans := rfl
@[simp] theorem Ev.setFault_act (i : Fin 15) (f : FaultRec → FaultRec) : (e.setFault i f).act = e.act := rfl
@[simp] theorem Ev.setFault_tgtChanged (i : Fin 15) (f : FaultRec → FaultRec) :
    (e.setFault i f).tgtChanged = e.tgtChanged := rfl
@[simp] theorem Ev.setFault_arb (i : Fin 15) (f : FaultRec → FaultRec) : (e.setFault i f).arb = e.arb := rfl
@[simp] theorem Ev.setFault_planEnded (i : Fin 15) (f : FaultRec → FaultRec) :
    (e.setFault i f).planEnded = e.planEnded := rfl
@[simp] theorem Ev.setFault_stDirty (i : Fin 15) (f : FaultRec → FaultRec) :
    (e.setFault i f).stDirty = e.stDirty := rfl
@[simp] theorem Ev.setFault_pwDirty (i : Fin 15) (f : FaultRec → FaultRec) :
    (e.setFault i f).pwDirty = e.pwDirty := rfl
@[simp] theorem Ev.setFault_cfg (i : Fin 15) (f : FaultRec → FaultRec) : (e.setFault i f).cfg = e.cfg := rfl
@[simp] theorem Ev.setFault_waitOf (i : Fin 15) (f : FaultRec → FaultRec) : (e.setFault i f).waitOf = e.waitOf := rfl
@[simp] theorem Ev.setFault_runningPlan (i : Fin 15) (f : FaultRec → FaultRec) : (e.setFault i f).runningPlan = e.runningPlan := rfl

/-! ### setWakeQ -/

@[simp] theorem Ev.setWakeQ_sys (w : WakeLine) (q : WakeQ) : (e.setWakeQ w q).sys = e.sys := rfl
@[simp] theorem Ev.setWakeQ_target (w : WakeLine) (q : WakeQ) : (e.setWakeQ w q).target = e.target := rfl
@[simp] theorem Ev.setWakeQ_retVal (w : WakeLine) (q : WakeQ) : (e.setWakeQ w q).retVal = e.retVal := rfl
@[simp] theorem Ev.setWakeQ_retArmed (w : WakeLine) (q : WakeQ) : (e.setWakeQ w q).retArmed = e.retArmed := rfl
@[simp] theorem Ev.setWakeQ_wakeQ (w : WakeLine) (q : WakeQ) :
    (e.setWakeQ w q).wakeQ = e.wakeQ.set (wakeIdx w) q := rfl
@[simp] theorem Ev.setWakeQ_keyHold (w : WakeLine) (q : WakeQ) : (e.setWakeQ w q).keyHold = e.keyHold := rfl
@[simp] theorem Ev.setWakeQ_rails (w : WakeLine) (q : WakeQ) : (e.setWakeQ w q).rails = e.rails := rfl
@[simp] theorem Ev.setWakeQ_plans (w : WakeLine) (q : WakeQ) : (e.setWakeQ w q).plans = e.plans := rfl
@[simp] theorem Ev.setWakeQ_run (w : WakeLine) (q : WakeQ) : (e.setWakeQ w q).run = e.run := rfl
@[simp] theorem Ev.setWakeQ_reqs (w : WakeLine) (q : WakeQ) : (e.setWakeQ w q).reqs = e.reqs := rfl
@[simp] theorem Ev.setWakeQ_hsMemory (w : WakeLine) (q : WakeQ) : (e.setWakeQ w q).hsMemory = e.hsMemory := rfl
@[simp] theorem Ev.setWakeQ_planLevels (w : WakeLine) (q : WakeQ) : (e.setWakeQ w q).planLevels = e.planLevels := rfl
@[simp] theorem Ev.setWakeQ_pulse (w : WakeLine) (q : WakeQ) : (e.setWakeQ w q).pulse = e.pulse := rfl
@[simp] theorem Ev.setWakeQ_sup (w : WakeLine) (q : WakeQ) : (e.setWakeQ w q).sup = e.sup := rfl
@[simp] theorem Ev.setWakeQ_lockLevel (w : WakeLine) (q : WakeQ) : (e.setWakeQ w q).lockLevel = e.lockLevel := rfl
@[simp] theorem Ev.setWakeQ_lockTimer (w : WakeLine) (q : WakeQ) : (e.setWakeQ w q).lockTimer = e.lockTimer := rfl
@[simp] theorem Ev.setWakeQ_watch (w : WakeLine) (q : WakeQ) : (e.setWakeQ w q).watch = e.watch := rfl
@[simp] theorem Ev.setWakeQ_scan (w : WakeLine) (q : WakeQ) : (e.setWakeQ w q).scan = e.scan := rfl
@[simp] theorem Ev.setWakeQ_bud (w : WakeLine) (q : WakeQ) : (e.setWakeQ w q).bud = e.bud := rfl
@[simp] theorem Ev.setWakeQ_ride (w : WakeLine) (q : WakeQ) : (e.setWakeQ w q).ride = e.ride := rfl
@[simp] theorem Ev.setWakeQ_shutdown (w : WakeLine) (q : WakeQ) : (e.setWakeQ w q).shutdown = e.shutdown := rfl
@[simp] theorem Ev.setWakeQ_tiers (w : WakeLine) (q : WakeQ) : (e.setWakeQ w q).tiers = e.tiers := rfl
@[simp] theorem Ev.setWakeQ_limit (w : WakeLine) (q : WakeQ) : (e.setWakeQ w q).limit = e.limit := rfl
@[simp] theorem Ev.setWakeQ_thermal (w : WakeLine) (q : WakeQ) : (e.setWakeQ w q).thermal = e.thermal := rfl
@[simp] theorem Ev.setWakeQ_faults (w : WakeLine) (q : WakeQ) : (e.setWakeQ w q).faults = e.faults := rfl
@[simp] theorem Ev.setWakeQ_link (w : WakeLine) (q : WakeQ) : (e.setWakeQ w q).link = e.link := rfl
@[simp] theorem Ev.setWakeQ_notices (w : WakeLine) (q : WakeQ) : (e.setWakeQ w q).notices = e.notices := rfl
@[simp] theorem Ev.setWakeQ_tables (w : WakeLine) (q : WakeQ) : (e.setWakeQ w q).tables = e.tables := rfl
@[simp] theorem Ev.setWakeQ_store (w : WakeLine) (q : WakeQ) : (e.setWakeQ w q).store = e.store := rfl
@[simp] theorem Ev.setWakeQ_pins (w : WakeLine) (q : WakeQ) : (e.setWakeQ w q).pins = e.pins := rfl
@[simp] theorem Ev.setWakeQ_now (w : WakeLine) (q : WakeQ) : (e.setWakeQ w q).now = e.now := rfl
@[simp] theorem Ev.setWakeQ_pending (w : WakeLine) (q : WakeQ) : (e.setWakeQ w q).pending = e.pending := rfl
@[simp] theorem Ev.setWakeQ_ans (w : WakeLine) (q : WakeQ) : (e.setWakeQ w q).ans = e.ans := rfl
@[simp] theorem Ev.setWakeQ_act (w : WakeLine) (q : WakeQ) : (e.setWakeQ w q).act = e.act := rfl
@[simp] theorem Ev.setWakeQ_tgtChanged (w : WakeLine) (q : WakeQ) : (e.setWakeQ w q).tgtChanged = e.tgtChanged := rfl
@[simp] theorem Ev.setWakeQ_arb (w : WakeLine) (q : WakeQ) : (e.setWakeQ w q).arb = e.arb := rfl
@[simp] theorem Ev.setWakeQ_planEnded (w : WakeLine) (q : WakeQ) : (e.setWakeQ w q).planEnded = e.planEnded := rfl
@[simp] theorem Ev.setWakeQ_stDirty (w : WakeLine) (q : WakeQ) : (e.setWakeQ w q).stDirty = e.stDirty := rfl
@[simp] theorem Ev.setWakeQ_pwDirty (w : WakeLine) (q : WakeQ) : (e.setWakeQ w q).pwDirty = e.pwDirty := rfl
@[simp] theorem Ev.setWakeQ_cfg (w : WakeLine) (q : WakeQ) : (e.setWakeQ w q).cfg = e.cfg := rfl
@[simp] theorem Ev.setWakeQ_waitOf (w : WakeLine) (q : WakeQ) : (e.setWakeQ w q).waitOf = e.waitOf := rfl
@[simp] theorem Ev.setWakeQ_runningPlan (w : WakeLine) (q : WakeQ) : (e.setWakeQ w q).runningPlan = e.runningPlan := rfl

/-! ### setPlanLevel -/

@[simp] theorem Ev.setPlanLevel_sys (l : LineId) (v : Level) : (e.setPlanLevel l v).sys = e.sys := rfl
@[simp] theorem Ev.setPlanLevel_target (l : LineId) (v : Level) : (e.setPlanLevel l v).target = e.target := rfl
@[simp] theorem Ev.setPlanLevel_retVal (l : LineId) (v : Level) : (e.setPlanLevel l v).retVal = e.retVal := rfl
@[simp] theorem Ev.setPlanLevel_retArmed (l : LineId) (v : Level) : (e.setPlanLevel l v).retArmed = e.retArmed := rfl
@[simp] theorem Ev.setPlanLevel_wakeQ (l : LineId) (v : Level) : (e.setPlanLevel l v).wakeQ = e.wakeQ := rfl
@[simp] theorem Ev.setPlanLevel_keyHold (l : LineId) (v : Level) : (e.setPlanLevel l v).keyHold = e.keyHold := rfl
@[simp] theorem Ev.setPlanLevel_rails (l : LineId) (v : Level) : (e.setPlanLevel l v).rails = e.rails := rfl
@[simp] theorem Ev.setPlanLevel_plans (l : LineId) (v : Level) : (e.setPlanLevel l v).plans = e.plans := rfl
@[simp] theorem Ev.setPlanLevel_run (l : LineId) (v : Level) : (e.setPlanLevel l v).run = e.run := rfl
@[simp] theorem Ev.setPlanLevel_reqs (l : LineId) (v : Level) : (e.setPlanLevel l v).reqs = e.reqs := rfl
@[simp] theorem Ev.setPlanLevel_hsMemory (l : LineId) (v : Level) : (e.setPlanLevel l v).hsMemory = e.hsMemory := rfl
@[simp] theorem Ev.setPlanLevel_planLevels (l : LineId) (v : Level) :
    (e.setPlanLevel l v).planLevels = e.planLevels.set l.idx v := rfl
@[simp] theorem Ev.setPlanLevel_pulse (l : LineId) (v : Level) : (e.setPlanLevel l v).pulse = e.pulse := rfl
@[simp] theorem Ev.setPlanLevel_sup (l : LineId) (v : Level) : (e.setPlanLevel l v).sup = e.sup := rfl
@[simp] theorem Ev.setPlanLevel_lockLevel (l : LineId) (v : Level) :
    (e.setPlanLevel l v).lockLevel = e.lockLevel := rfl
@[simp] theorem Ev.setPlanLevel_lockTimer (l : LineId) (v : Level) :
    (e.setPlanLevel l v).lockTimer = e.lockTimer := rfl
@[simp] theorem Ev.setPlanLevel_watch (l : LineId) (v : Level) : (e.setPlanLevel l v).watch = e.watch := rfl
@[simp] theorem Ev.setPlanLevel_scan (l : LineId) (v : Level) : (e.setPlanLevel l v).scan = e.scan := rfl
@[simp] theorem Ev.setPlanLevel_bud (l : LineId) (v : Level) : (e.setPlanLevel l v).bud = e.bud := rfl
@[simp] theorem Ev.setPlanLevel_ride (l : LineId) (v : Level) : (e.setPlanLevel l v).ride = e.ride := rfl
@[simp] theorem Ev.setPlanLevel_shutdown (l : LineId) (v : Level) : (e.setPlanLevel l v).shutdown = e.shutdown := rfl
@[simp] theorem Ev.setPlanLevel_tiers (l : LineId) (v : Level) : (e.setPlanLevel l v).tiers = e.tiers := rfl
@[simp] theorem Ev.setPlanLevel_limit (l : LineId) (v : Level) : (e.setPlanLevel l v).limit = e.limit := rfl
@[simp] theorem Ev.setPlanLevel_thermal (l : LineId) (v : Level) : (e.setPlanLevel l v).thermal = e.thermal := rfl
@[simp] theorem Ev.setPlanLevel_faults (l : LineId) (v : Level) : (e.setPlanLevel l v).faults = e.faults := rfl
@[simp] theorem Ev.setPlanLevel_link (l : LineId) (v : Level) : (e.setPlanLevel l v).link = e.link := rfl
@[simp] theorem Ev.setPlanLevel_notices (l : LineId) (v : Level) : (e.setPlanLevel l v).notices = e.notices := rfl
@[simp] theorem Ev.setPlanLevel_tables (l : LineId) (v : Level) : (e.setPlanLevel l v).tables = e.tables := rfl
@[simp] theorem Ev.setPlanLevel_store (l : LineId) (v : Level) : (e.setPlanLevel l v).store = e.store := rfl
@[simp] theorem Ev.setPlanLevel_pins (l : LineId) (v : Level) : (e.setPlanLevel l v).pins = e.pins := rfl
@[simp] theorem Ev.setPlanLevel_now (l : LineId) (v : Level) : (e.setPlanLevel l v).now = e.now := rfl
@[simp] theorem Ev.setPlanLevel_pending (l : LineId) (v : Level) : (e.setPlanLevel l v).pending = e.pending := rfl
@[simp] theorem Ev.setPlanLevel_ans (l : LineId) (v : Level) : (e.setPlanLevel l v).ans = e.ans := rfl
@[simp] theorem Ev.setPlanLevel_act (l : LineId) (v : Level) : (e.setPlanLevel l v).act = e.act := rfl
@[simp] theorem Ev.setPlanLevel_tgtChanged (l : LineId) (v : Level) :
    (e.setPlanLevel l v).tgtChanged = e.tgtChanged := rfl
@[simp] theorem Ev.setPlanLevel_arb (l : LineId) (v : Level) : (e.setPlanLevel l v).arb = e.arb := rfl
@[simp] theorem Ev.setPlanLevel_planEnded (l : LineId) (v : Level) :
    (e.setPlanLevel l v).planEnded = e.planEnded := rfl
@[simp] theorem Ev.setPlanLevel_stDirty (l : LineId) (v : Level) : (e.setPlanLevel l v).stDirty = e.stDirty := rfl
@[simp] theorem Ev.setPlanLevel_pwDirty (l : LineId) (v : Level) : (e.setPlanLevel l v).pwDirty = e.pwDirty := rfl
@[simp] theorem Ev.setPlanLevel_cfg (l : LineId) (v : Level) : (e.setPlanLevel l v).cfg = e.cfg := rfl
@[simp] theorem Ev.setPlanLevel_waitOf (l : LineId) (v : Level) : (e.setPlanLevel l v).waitOf = e.waitOf := rfl
@[simp] theorem Ev.setPlanLevel_runningPlan (l : LineId) (v : Level) : (e.setPlanLevel l v).runningPlan = e.runningPlan := rfl

/-! ### setWait -/

@[simp] theorem Ev.setWait_sys (w : Wait) : (e.setWait w).sys = e.sys := rfl
@[simp] theorem Ev.setWait_target (w : Wait) : (e.setWait w).target = e.target := rfl
@[simp] theorem Ev.setWait_retVal (w : Wait) : (e.setWait w).retVal = e.retVal := rfl
@[simp] theorem Ev.setWait_retArmed (w : Wait) : (e.setWait w).retArmed = e.retArmed := rfl
@[simp] theorem Ev.setWait_wakeQ (w : Wait) : (e.setWait w).wakeQ = e.wakeQ := rfl
@[simp] theorem Ev.setWait_keyHold (w : Wait) : (e.setWait w).keyHold = e.keyHold := rfl
@[simp] theorem Ev.setWait_rails (w : Wait) : (e.setWait w).rails = e.rails := rfl
@[simp] theorem Ev.setWait_plans (w : Wait) : (e.setWait w).plans = e.plans := rfl
@[simp] theorem Ev.setWait_run (w : Wait) : (e.setWait w).run = e.run.map fun run => { run with wait := w } := rfl
@[simp] theorem Ev.setWait_reqs (w : Wait) : (e.setWait w).reqs = e.reqs := rfl
@[simp] theorem Ev.setWait_hsMemory (w : Wait) : (e.setWait w).hsMemory = e.hsMemory := rfl
@[simp] theorem Ev.setWait_planLevels (w : Wait) : (e.setWait w).planLevels = e.planLevels := rfl
@[simp] theorem Ev.setWait_pulse (w : Wait) : (e.setWait w).pulse = e.pulse := rfl
@[simp] theorem Ev.setWait_sup (w : Wait) : (e.setWait w).sup = e.sup := rfl
@[simp] theorem Ev.setWait_lockLevel (w : Wait) : (e.setWait w).lockLevel = e.lockLevel := rfl
@[simp] theorem Ev.setWait_lockTimer (w : Wait) : (e.setWait w).lockTimer = e.lockTimer := rfl
@[simp] theorem Ev.setWait_watch (w : Wait) : (e.setWait w).watch = e.watch := rfl
@[simp] theorem Ev.setWait_scan (w : Wait) : (e.setWait w).scan = e.scan := rfl
@[simp] theorem Ev.setWait_bud (w : Wait) : (e.setWait w).bud = e.bud := rfl
@[simp] theorem Ev.setWait_ride (w : Wait) : (e.setWait w).ride = e.ride := rfl
@[simp] theorem Ev.setWait_shutdown (w : Wait) : (e.setWait w).shutdown = e.shutdown := rfl
@[simp] theorem Ev.setWait_tiers (w : Wait) : (e.setWait w).tiers = e.tiers := rfl
@[simp] theorem Ev.setWait_limit (w : Wait) : (e.setWait w).limit = e.limit := rfl
@[simp] theorem Ev.setWait_thermal (w : Wait) : (e.setWait w).thermal = e.thermal := rfl
@[simp] theorem Ev.setWait_faults (w : Wait) : (e.setWait w).faults = e.faults := rfl
@[simp] theorem Ev.setWait_link (w : Wait) : (e.setWait w).link = e.link := rfl
@[simp] theorem Ev.setWait_notices (w : Wait) : (e.setWait w).notices = e.notices := rfl
@[simp] theorem Ev.setWait_tables (w : Wait) : (e.setWait w).tables = e.tables := rfl
@[simp] theorem Ev.setWait_store (w : Wait) : (e.setWait w).store = e.store := rfl
@[simp] theorem Ev.setWait_pins (w : Wait) : (e.setWait w).pins = e.pins := rfl
@[simp] theorem Ev.setWait_now (w : Wait) : (e.setWait w).now = e.now := rfl
@[simp] theorem Ev.setWait_pending (w : Wait) : (e.setWait w).pending = e.pending := rfl
@[simp] theorem Ev.setWait_ans (w : Wait) : (e.setWait w).ans = e.ans := rfl
@[simp] theorem Ev.setWait_act (w : Wait) : (e.setWait w).act = e.act := rfl
@[simp] theorem Ev.setWait_tgtChanged (w : Wait) : (e.setWait w).tgtChanged = e.tgtChanged := rfl
@[simp] theorem Ev.setWait_arb (w : Wait) : (e.setWait w).arb = e.arb := rfl
@[simp] theorem Ev.setWait_planEnded (w : Wait) : (e.setWait w).planEnded = e.planEnded := rfl
@[simp] theorem Ev.setWait_stDirty (w : Wait) : (e.setWait w).stDirty = e.stDirty := rfl
@[simp] theorem Ev.setWait_pwDirty (w : Wait) : (e.setWait w).pwDirty = e.pwDirty := rfl
@[simp] theorem Ev.setWait_cfg (w : Wait) : (e.setWait w).cfg = e.cfg := rfl

/-! ### answer -/

@[simp] theorem Ev.answer_sys (a : Answer) : (e.answer a).sys = e.sys := rfl
@[simp] theorem Ev.answer_target (a : Answer) : (e.answer a).target = e.target := rfl
@[simp] theorem Ev.answer_retVal (a : Answer) : (e.answer a).retVal = e.retVal := rfl
@[simp] theorem Ev.answer_retArmed (a : Answer) : (e.answer a).retArmed = e.retArmed := rfl
@[simp] theorem Ev.answer_wakeQ (a : Answer) : (e.answer a).wakeQ = e.wakeQ := rfl
@[simp] theorem Ev.answer_keyHold (a : Answer) : (e.answer a).keyHold = e.keyHold := rfl
@[simp] theorem Ev.answer_rails (a : Answer) : (e.answer a).rails = e.rails := rfl
@[simp] theorem Ev.answer_plans (a : Answer) : (e.answer a).plans = e.plans := rfl
@[simp] theorem Ev.answer_run (a : Answer) :
    (e.answer a).run = e.run.map fun run => { run with wait := .nothing } := rfl
@[simp] theorem Ev.answer_reqs (a : Answer) : (e.answer a).reqs = e.reqs := rfl
@[simp] theorem Ev.answer_hsMemory (a : Answer) : (e.answer a).hsMemory = e.hsMemory := rfl
@[simp] theorem Ev.answer_planLevels (a : Answer) : (e.answer a).planLevels = e.planLevels := rfl
@[simp] theorem Ev.answer_pulse (a : Answer) : (e.answer a).pulse = e.pulse := rfl
@[simp] theorem Ev.answer_sup (a : Answer) : (e.answer a).sup = e.sup := rfl
@[simp] theorem Ev.answer_lockLevel (a : Answer) : (e.answer a).lockLevel = e.lockLevel := rfl
@[simp] theorem Ev.answer_lockTimer (a : Answer) : (e.answer a).lockTimer = e.lockTimer := rfl
@[simp] theorem Ev.answer_watch (a : Answer) : (e.answer a).watch = e.watch := rfl
@[simp] theorem Ev.answer_scan (a : Answer) : (e.answer a).scan = e.scan := rfl
@[simp] theorem Ev.answer_bud (a : Answer) : (e.answer a).bud = e.bud := rfl
@[simp] theorem Ev.answer_ride (a : Answer) : (e.answer a).ride = e.ride := rfl
@[simp] theorem Ev.answer_shutdown (a : Answer) : (e.answer a).shutdown = e.shutdown := rfl
@[simp] theorem Ev.answer_tiers (a : Answer) : (e.answer a).tiers = e.tiers := rfl
@[simp] theorem Ev.answer_limit (a : Answer) : (e.answer a).limit = e.limit := rfl
@[simp] theorem Ev.answer_thermal (a : Answer) : (e.answer a).thermal = e.thermal := rfl
@[simp] theorem Ev.answer_faults (a : Answer) : (e.answer a).faults = e.faults := rfl
@[simp] theorem Ev.answer_link (a : Answer) : (e.answer a).link = e.link := rfl
@[simp] theorem Ev.answer_notices (a : Answer) : (e.answer a).notices = e.notices := rfl
@[simp] theorem Ev.answer_tables (a : Answer) : (e.answer a).tables = e.tables := rfl
@[simp] theorem Ev.answer_store (a : Answer) : (e.answer a).store = e.store := rfl
@[simp] theorem Ev.answer_pins (a : Answer) : (e.answer a).pins = e.pins := rfl
@[simp] theorem Ev.answer_now (a : Answer) : (e.answer a).now = e.now := rfl
@[simp] theorem Ev.answer_pending (a : Answer) : (e.answer a).pending = e.pending := rfl
@[simp] theorem Ev.answer_ans (a : Answer) : (e.answer a).ans = some a := rfl
@[simp] theorem Ev.answer_act (a : Answer) : (e.answer a).act = e.act := rfl
@[simp] theorem Ev.answer_tgtChanged (a : Answer) : (e.answer a).tgtChanged = e.tgtChanged := rfl
@[simp] theorem Ev.answer_arb (a : Answer) : (e.answer a).arb = e.arb := rfl
@[simp] theorem Ev.answer_planEnded (a : Answer) : (e.answer a).planEnded = e.planEnded := rfl
@[simp] theorem Ev.answer_stDirty (a : Answer) : (e.answer a).stDirty = e.stDirty := rfl
@[simp] theorem Ev.answer_pwDirty (a : Answer) : (e.answer a).pwDirty = e.pwDirty := rfl
@[simp] theorem Ev.answer_cfg (a : Answer) : (e.answer a).cfg = e.cfg := rfl

/-! ### notice -/

@[simp] theorem Ev.notice_sys (k : NoticeKey) (b : NoticeBody) : (e.notice k b).sys = e.sys := rfl
@[simp] theorem Ev.notice_target (k : NoticeKey) (b : NoticeBody) : (e.notice k b).target = e.target := rfl
@[simp] theorem Ev.notice_retVal (k : NoticeKey) (b : NoticeBody) : (e.notice k b).retVal = e.retVal := rfl
@[simp] theorem Ev.notice_retArmed (k : NoticeKey) (b : NoticeBody) : (e.notice k b).retArmed = e.retArmed := rfl
@[simp] theorem Ev.notice_wakeQ (k : NoticeKey) (b : NoticeBody) : (e.notice k b).wakeQ = e.wakeQ := rfl
@[simp] theorem Ev.notice_keyHold (k : NoticeKey) (b : NoticeBody) : (e.notice k b).keyHold = e.keyHold := rfl
@[simp] theorem Ev.notice_rails (k : NoticeKey) (b : NoticeBody) : (e.notice k b).rails = e.rails := rfl
@[simp] theorem Ev.notice_plans (k : NoticeKey) (b : NoticeBody) : (e.notice k b).plans = e.plans := rfl
@[simp] theorem Ev.notice_run (k : NoticeKey) (b : NoticeBody) : (e.notice k b).run = e.run := rfl
@[simp] theorem Ev.notice_reqs (k : NoticeKey) (b : NoticeBody) : (e.notice k b).reqs = e.reqs := rfl
@[simp] theorem Ev.notice_hsMemory (k : NoticeKey) (b : NoticeBody) : (e.notice k b).hsMemory = e.hsMemory := rfl
@[simp] theorem Ev.notice_planLevels (k : NoticeKey) (b : NoticeBody) :
    (e.notice k b).planLevels = e.planLevels := rfl
@[simp] theorem Ev.notice_pulse (k : NoticeKey) (b : NoticeBody) : (e.notice k b).pulse = e.pulse := rfl
@[simp] theorem Ev.notice_sup (k : NoticeKey) (b : NoticeBody) : (e.notice k b).sup = e.sup := rfl
@[simp] theorem Ev.notice_lockLevel (k : NoticeKey) (b : NoticeBody) : (e.notice k b).lockLevel = e.lockLevel := rfl
@[simp] theorem Ev.notice_lockTimer (k : NoticeKey) (b : NoticeBody) : (e.notice k b).lockTimer = e.lockTimer := rfl
@[simp] theorem Ev.notice_watch (k : NoticeKey) (b : NoticeBody) : (e.notice k b).watch = e.watch := rfl
@[simp] theorem Ev.notice_scan (k : NoticeKey) (b : NoticeBody) : (e.notice k b).scan = e.scan := rfl
@[simp] theorem Ev.notice_bud (k : NoticeKey) (b : NoticeBody) : (e.notice k b).bud = e.bud := rfl
@[simp] theorem Ev.notice_ride (k : NoticeKey) (b : NoticeBody) : (e.notice k b).ride = e.ride := rfl
@[simp] theorem Ev.notice_shutdown (k : NoticeKey) (b : NoticeBody) : (e.notice k b).shutdown = e.shutdown := rfl
@[simp] theorem Ev.notice_tiers (k : NoticeKey) (b : NoticeBody) : (e.notice k b).tiers = e.tiers := rfl
@[simp] theorem Ev.notice_limit (k : NoticeKey) (b : NoticeBody) : (e.notice k b).limit = e.limit := rfl
@[simp] theorem Ev.notice_thermal (k : NoticeKey) (b : NoticeBody) : (e.notice k b).thermal = e.thermal := rfl
@[simp] theorem Ev.notice_faults (k : NoticeKey) (b : NoticeBody) : (e.notice k b).faults = e.faults := rfl
@[simp] theorem Ev.notice_link (k : NoticeKey) (b : NoticeBody) : (e.notice k b).link = e.link := rfl
@[simp] theorem Ev.notice_notices (k : NoticeKey) (b : NoticeBody) :
    (e.notice k b).notices = enqueue e.notices k b := rfl
@[simp] theorem Ev.notice_tables (k : NoticeKey) (b : NoticeBody) : (e.notice k b).tables = e.tables := rfl
@[simp] theorem Ev.notice_store (k : NoticeKey) (b : NoticeBody) : (e.notice k b).store = e.store := rfl
@[simp] theorem Ev.notice_pins (k : NoticeKey) (b : NoticeBody) : (e.notice k b).pins = e.pins := rfl
@[simp] theorem Ev.notice_now (k : NoticeKey) (b : NoticeBody) : (e.notice k b).now = e.now := rfl
@[simp] theorem Ev.notice_pending (k : NoticeKey) (b : NoticeBody) : (e.notice k b).pending = e.pending := rfl
@[simp] theorem Ev.notice_ans (k : NoticeKey) (b : NoticeBody) : (e.notice k b).ans = e.ans := rfl
@[simp] theorem Ev.notice_act (k : NoticeKey) (b : NoticeBody) : (e.notice k b).act = e.act := rfl
@[simp] theorem Ev.notice_tgtChanged (k : NoticeKey) (b : NoticeBody) :
    (e.notice k b).tgtChanged = e.tgtChanged := rfl
@[simp] theorem Ev.notice_arb (k : NoticeKey) (b : NoticeBody) : (e.notice k b).arb = e.arb := rfl
@[simp] theorem Ev.notice_planEnded (k : NoticeKey) (b : NoticeBody) : (e.notice k b).planEnded = e.planEnded := rfl
@[simp] theorem Ev.notice_stDirty (k : NoticeKey) (b : NoticeBody) : (e.notice k b).stDirty = e.stDirty := rfl
@[simp] theorem Ev.notice_pwDirty (k : NoticeKey) (b : NoticeBody) : (e.notice k b).pwDirty = e.pwDirty := rfl
@[simp] theorem Ev.notice_cfg (k : NoticeKey) (b : NoticeBody) : (e.notice k b).cfg = e.cfg := rfl
@[simp] theorem Ev.notice_waitOf (k : NoticeKey) (b : NoticeBody) : (e.notice k b).waitOf = e.waitOf := rfl
@[simp] theorem Ev.notice_runningPlan (k : NoticeKey) (b : NoticeBody) : (e.notice k b).runningPlan = e.runningPlan := rfl

/-! ### withdraw -/

@[simp] theorem Ev.withdraw_sys (k : NoticeKey) : (e.withdraw k).sys = e.sys := rfl
@[simp] theorem Ev.withdraw_target (k : NoticeKey) : (e.withdraw k).target = e.target := rfl
@[simp] theorem Ev.withdraw_retVal (k : NoticeKey) : (e.withdraw k).retVal = e.retVal := rfl
@[simp] theorem Ev.withdraw_retArmed (k : NoticeKey) : (e.withdraw k).retArmed = e.retArmed := rfl
@[simp] theorem Ev.withdraw_wakeQ (k : NoticeKey) : (e.withdraw k).wakeQ = e.wakeQ := rfl
@[simp] theorem Ev.withdraw_keyHold (k : NoticeKey) : (e.withdraw k).keyHold = e.keyHold := rfl
@[simp] theorem Ev.withdraw_rails (k : NoticeKey) : (e.withdraw k).rails = e.rails := rfl
@[simp] theorem Ev.withdraw_plans (k : NoticeKey) : (e.withdraw k).plans = e.plans := rfl
@[simp] theorem Ev.withdraw_run (k : NoticeKey) : (e.withdraw k).run = e.run := rfl
@[simp] theorem Ev.withdraw_reqs (k : NoticeKey) : (e.withdraw k).reqs = e.reqs := rfl
@[simp] theorem Ev.withdraw_hsMemory (k : NoticeKey) : (e.withdraw k).hsMemory = e.hsMemory := rfl
@[simp] theorem Ev.withdraw_planLevels (k : NoticeKey) : (e.withdraw k).planLevels = e.planLevels := rfl
@[simp] theorem Ev.withdraw_pulse (k : NoticeKey) : (e.withdraw k).pulse = e.pulse := rfl
@[simp] theorem Ev.withdraw_sup (k : NoticeKey) : (e.withdraw k).sup = e.sup := rfl
@[simp] theorem Ev.withdraw_lockLevel (k : NoticeKey) : (e.withdraw k).lockLevel = e.lockLevel := rfl
@[simp] theorem Ev.withdraw_lockTimer (k : NoticeKey) : (e.withdraw k).lockTimer = e.lockTimer := rfl
@[simp] theorem Ev.withdraw_watch (k : NoticeKey) : (e.withdraw k).watch = e.watch := rfl
@[simp] theorem Ev.withdraw_scan (k : NoticeKey) : (e.withdraw k).scan = e.scan := rfl
@[simp] theorem Ev.withdraw_bud (k : NoticeKey) : (e.withdraw k).bud = e.bud := rfl
@[simp] theorem Ev.withdraw_ride (k : NoticeKey) : (e.withdraw k).ride = e.ride := rfl
@[simp] theorem Ev.withdraw_shutdown (k : NoticeKey) : (e.withdraw k).shutdown = e.shutdown := rfl
@[simp] theorem Ev.withdraw_tiers (k : NoticeKey) : (e.withdraw k).tiers = e.tiers := rfl
@[simp] theorem Ev.withdraw_limit (k : NoticeKey) : (e.withdraw k).limit = e.limit := rfl
@[simp] theorem Ev.withdraw_thermal (k : NoticeKey) : (e.withdraw k).thermal = e.thermal := rfl
@[simp] theorem Ev.withdraw_faults (k : NoticeKey) : (e.withdraw k).faults = e.faults := rfl
@[simp] theorem Ev.withdraw_link (k : NoticeKey) : (e.withdraw k).link = e.link := rfl
@[simp] theorem Ev.withdraw_notices (k : NoticeKey) :
    (e.withdraw k).notices = e.notices.filter fun n => decide (n.key ≠ k) := rfl
@[simp] theorem Ev.withdraw_tables (k : NoticeKey) : (e.withdraw k).tables = e.tables := rfl
@[simp] theorem Ev.withdraw_store (k : NoticeKey) : (e.withdraw k).store = e.store := rfl
@[simp] theorem Ev.withdraw_pins (k : NoticeKey) : (e.withdraw k).pins = e.pins := rfl
@[simp] theorem Ev.withdraw_now (k : NoticeKey) : (e.withdraw k).now = e.now := rfl
@[simp] theorem Ev.withdraw_pending (k : NoticeKey) : (e.withdraw k).pending = e.pending := rfl
@[simp] theorem Ev.withdraw_ans (k : NoticeKey) : (e.withdraw k).ans = e.ans := rfl
@[simp] theorem Ev.withdraw_act (k : NoticeKey) : (e.withdraw k).act = e.act := rfl
@[simp] theorem Ev.withdraw_tgtChanged (k : NoticeKey) : (e.withdraw k).tgtChanged = e.tgtChanged := rfl
@[simp] theorem Ev.withdraw_arb (k : NoticeKey) : (e.withdraw k).arb = e.arb := rfl
@[simp] theorem Ev.withdraw_planEnded (k : NoticeKey) : (e.withdraw k).planEnded = e.planEnded := rfl
@[simp] theorem Ev.withdraw_stDirty (k : NoticeKey) : (e.withdraw k).stDirty = e.stDirty := rfl
@[simp] theorem Ev.withdraw_pwDirty (k : NoticeKey) : (e.withdraw k).pwDirty = e.pwDirty := rfl
@[simp] theorem Ev.withdraw_cfg (k : NoticeKey) : (e.withdraw k).cfg = e.cfg := rfl
@[simp] theorem Ev.withdraw_waitOf (k : NoticeKey) : (e.withdraw k).waitOf = e.waitOf := rfl
@[simp] theorem Ev.withdraw_runningPlan (k : NoticeKey) : (e.withdraw k).runningPlan = e.runningPlan := rfl

/-! ### stateNotice -/

@[simp] theorem Ev.stateNotice_sys : e.stateNotice.sys = e.sys := rfl
@[simp] theorem Ev.stateNotice_target : e.stateNotice.target = e.target := rfl
@[simp] theorem Ev.stateNotice_retVal : e.stateNotice.retVal = e.retVal := rfl
@[simp] theorem Ev.stateNotice_retArmed : e.stateNotice.retArmed = e.retArmed := rfl
@[simp] theorem Ev.stateNotice_wakeQ : e.stateNotice.wakeQ = e.wakeQ := rfl
@[simp] theorem Ev.stateNotice_keyHold : e.stateNotice.keyHold = e.keyHold := rfl
@[simp] theorem Ev.stateNotice_rails : e.stateNotice.rails = e.rails := rfl
@[simp] theorem Ev.stateNotice_plans : e.stateNotice.plans = e.plans := rfl
@[simp] theorem Ev.stateNotice_run : e.stateNotice.run = e.run := rfl
@[simp] theorem Ev.stateNotice_reqs : e.stateNotice.reqs = e.reqs := rfl
@[simp] theorem Ev.stateNotice_hsMemory : e.stateNotice.hsMemory = e.hsMemory := rfl
@[simp] theorem Ev.stateNotice_planLevels : e.stateNotice.planLevels = e.planLevels := rfl
@[simp] theorem Ev.stateNotice_pulse : e.stateNotice.pulse = e.pulse := rfl
@[simp] theorem Ev.stateNotice_sup : e.stateNotice.sup = e.sup := rfl
@[simp] theorem Ev.stateNotice_lockLevel : e.stateNotice.lockLevel = e.lockLevel := rfl
@[simp] theorem Ev.stateNotice_lockTimer : e.stateNotice.lockTimer = e.lockTimer := rfl
@[simp] theorem Ev.stateNotice_watch : e.stateNotice.watch = e.watch := rfl
@[simp] theorem Ev.stateNotice_scan : e.stateNotice.scan = e.scan := rfl
@[simp] theorem Ev.stateNotice_bud : e.stateNotice.bud = e.bud := rfl
@[simp] theorem Ev.stateNotice_ride : e.stateNotice.ride = e.ride := rfl
@[simp] theorem Ev.stateNotice_shutdown : e.stateNotice.shutdown = e.shutdown := rfl
@[simp] theorem Ev.stateNotice_tiers : e.stateNotice.tiers = e.tiers := rfl
@[simp] theorem Ev.stateNotice_limit : e.stateNotice.limit = e.limit := rfl
@[simp] theorem Ev.stateNotice_thermal : e.stateNotice.thermal = e.thermal := rfl
@[simp] theorem Ev.stateNotice_faults : e.stateNotice.faults = e.faults := rfl
@[simp] theorem Ev.stateNotice_link : e.stateNotice.link = e.link := rfl
@[simp] theorem Ev.stateNotice_notices : e.stateNotice.notices = enqueue e.notices .state e.stateBody := rfl
@[simp] theorem Ev.stateNotice_tables : e.stateNotice.tables = e.tables := rfl
@[simp] theorem Ev.stateNotice_store : e.stateNotice.store = e.store := rfl
@[simp] theorem Ev.stateNotice_pins : e.stateNotice.pins = e.pins := rfl
@[simp] theorem Ev.stateNotice_now : e.stateNotice.now = e.now := rfl
@[simp] theorem Ev.stateNotice_pending : e.stateNotice.pending = e.pending := rfl
@[simp] theorem Ev.stateNotice_ans : e.stateNotice.ans = e.ans := rfl
@[simp] theorem Ev.stateNotice_act : e.stateNotice.act = e.act := rfl
@[simp] theorem Ev.stateNotice_tgtChanged : e.stateNotice.tgtChanged = e.tgtChanged := rfl
@[simp] theorem Ev.stateNotice_arb : e.stateNotice.arb = e.arb := rfl
@[simp] theorem Ev.stateNotice_planEnded : e.stateNotice.planEnded = e.planEnded := rfl
@[simp] theorem Ev.stateNotice_stDirty : e.stateNotice.stDirty = true := rfl
@[simp] theorem Ev.stateNotice_pwDirty : e.stateNotice.pwDirty = e.pwDirty := rfl
@[simp] theorem Ev.stateNotice_cfg : e.stateNotice.cfg = e.cfg := rfl
@[simp] theorem Ev.stateNotice_waitOf : e.stateNotice.waitOf = e.waitOf := rfl
@[simp] theorem Ev.stateNotice_runningPlan : e.stateNotice.runningPlan = e.runningPlan := rfl

/-! ### powerNotice -/

@[simp] theorem Ev.powerNotice_sys : e.powerNotice.sys = e.sys := rfl
@[simp] theorem Ev.powerNotice_target : e.powerNotice.target = e.target := rfl
@[simp] theorem Ev.powerNotice_retVal : e.powerNotice.retVal = e.retVal := rfl
@[simp] theorem Ev.powerNotice_retArmed : e.powerNotice.retArmed = e.retArmed := rfl
@[simp] theorem Ev.powerNotice_wakeQ : e.powerNotice.wakeQ = e.wakeQ := rfl
@[simp] theorem Ev.powerNotice_keyHold : e.powerNotice.keyHold = e.keyHold := rfl
@[simp] theorem Ev.powerNotice_rails : e.powerNotice.rails = e.rails := rfl
@[simp] theorem Ev.powerNotice_plans : e.powerNotice.plans = e.plans := rfl
@[simp] theorem Ev.powerNotice_run : e.powerNotice.run = e.run := rfl
@[simp] theorem Ev.powerNotice_reqs : e.powerNotice.reqs = e.reqs := rfl
@[simp] theorem Ev.powerNotice_hsMemory : e.powerNotice.hsMemory = e.hsMemory := rfl
@[simp] theorem Ev.powerNotice_planLevels : e.powerNotice.planLevels = e.planLevels := rfl
@[simp] theorem Ev.powerNotice_pulse : e.powerNotice.pulse = e.pulse := rfl
@[simp] theorem Ev.powerNotice_sup : e.powerNotice.sup = e.sup := rfl
@[simp] theorem Ev.powerNotice_lockLevel : e.powerNotice.lockLevel = e.lockLevel := rfl
@[simp] theorem Ev.powerNotice_lockTimer : e.powerNotice.lockTimer = e.lockTimer := rfl
@[simp] theorem Ev.powerNotice_watch : e.powerNotice.watch = e.watch := rfl
@[simp] theorem Ev.powerNotice_scan : e.powerNotice.scan = e.scan := rfl
@[simp] theorem Ev.powerNotice_bud : e.powerNotice.bud = e.bud := rfl
@[simp] theorem Ev.powerNotice_ride : e.powerNotice.ride = e.ride := rfl
@[simp] theorem Ev.powerNotice_shutdown : e.powerNotice.shutdown = e.shutdown := rfl
@[simp] theorem Ev.powerNotice_tiers : e.powerNotice.tiers = e.tiers := rfl
@[simp] theorem Ev.powerNotice_limit : e.powerNotice.limit = e.limit := rfl
@[simp] theorem Ev.powerNotice_thermal : e.powerNotice.thermal = e.thermal := rfl
@[simp] theorem Ev.powerNotice_faults : e.powerNotice.faults = e.faults := rfl
@[simp] theorem Ev.powerNotice_link : e.powerNotice.link = e.link := rfl
@[simp] theorem Ev.powerNotice_notices : e.powerNotice.notices = enqueue e.notices .power e.powerBody := rfl
@[simp] theorem Ev.powerNotice_tables : e.powerNotice.tables = e.tables := rfl
@[simp] theorem Ev.powerNotice_store : e.powerNotice.store = e.store := rfl
@[simp] theorem Ev.powerNotice_pins : e.powerNotice.pins = e.pins := rfl
@[simp] theorem Ev.powerNotice_now : e.powerNotice.now = e.now := rfl
@[simp] theorem Ev.powerNotice_pending : e.powerNotice.pending = e.pending := rfl
@[simp] theorem Ev.powerNotice_ans : e.powerNotice.ans = e.ans := rfl
@[simp] theorem Ev.powerNotice_act : e.powerNotice.act = e.act := rfl
@[simp] theorem Ev.powerNotice_tgtChanged : e.powerNotice.tgtChanged = e.tgtChanged := rfl
@[simp] theorem Ev.powerNotice_arb : e.powerNotice.arb = e.arb := rfl
@[simp] theorem Ev.powerNotice_planEnded : e.powerNotice.planEnded = e.planEnded := rfl
@[simp] theorem Ev.powerNotice_stDirty : e.powerNotice.stDirty = e.stDirty := rfl
@[simp] theorem Ev.powerNotice_pwDirty : e.powerNotice.pwDirty = true := rfl
@[simp] theorem Ev.powerNotice_cfg : e.powerNotice.cfg = e.cfg := rfl
@[simp] theorem Ev.powerNotice_waitOf : e.powerNotice.waitOf = e.waitOf := rfl
@[simp] theorem Ev.powerNotice_runningPlan : e.powerNotice.runningPlan = e.runningPlan := rfl

/-! ### The beginning and the end of an event -/

@[simp] theorem Ev.start_sys (s : State) : (Ev.start s).sys = s.sys := rfl
@[simp] theorem Ev.start_target (s : State) : (Ev.start s).target = s.target := rfl
@[simp] theorem Ev.start_retVal (s : State) : (Ev.start s).retVal = s.retVal := rfl
@[simp] theorem Ev.start_retArmed (s : State) : (Ev.start s).retArmed = s.retArmed := rfl
@[simp] theorem Ev.start_wakeQ (s : State) : (Ev.start s).wakeQ = s.wakeQ := rfl
@[simp] theorem Ev.start_keyHold (s : State) : (Ev.start s).keyHold = s.keyHold := rfl
@[simp] theorem Ev.start_rails (s : State) : (Ev.start s).rails = s.rails := rfl
@[simp] theorem Ev.start_plans (s : State) : (Ev.start s).plans = s.plans := rfl
@[simp] theorem Ev.start_run (s : State) : (Ev.start s).run = s.run := rfl
@[simp] theorem Ev.start_reqs (s : State) : (Ev.start s).reqs = s.reqs := rfl
@[simp] theorem Ev.start_hsMemory (s : State) : (Ev.start s).hsMemory = s.hsMemory := rfl
@[simp] theorem Ev.start_planLevels (s : State) : (Ev.start s).planLevels = s.planLevels := rfl
@[simp] theorem Ev.start_pulse (s : State) : (Ev.start s).pulse = s.pulse := rfl
@[simp] theorem Ev.start_sup (s : State) : (Ev.start s).sup = s.sup := rfl
@[simp] theorem Ev.start_lockLevel (s : State) : (Ev.start s).lockLevel = s.lockLevel := rfl
@[simp] theorem Ev.start_lockTimer (s : State) : (Ev.start s).lockTimer = s.lockTimer := rfl
@[simp] theorem Ev.start_watch (s : State) : (Ev.start s).watch = s.watch := rfl
@[simp] theorem Ev.start_scan (s : State) : (Ev.start s).scan = s.scan := rfl
@[simp] theorem Ev.start_bud (s : State) : (Ev.start s).bud = s.bud := rfl
@[simp] theorem Ev.start_ride (s : State) : (Ev.start s).ride = s.ride := rfl
@[simp] theorem Ev.start_shutdown (s : State) : (Ev.start s).shutdown = s.shutdown := rfl
@[simp] theorem Ev.start_tiers (s : State) : (Ev.start s).tiers = s.tiers := rfl
@[simp] theorem Ev.start_limit (s : State) : (Ev.start s).limit = s.limit := rfl
@[simp] theorem Ev.start_thermal (s : State) : (Ev.start s).thermal = s.thermal := rfl
@[simp] theorem Ev.start_faults (s : State) : (Ev.start s).faults = s.faults := rfl
@[simp] theorem Ev.start_link (s : State) : (Ev.start s).link = s.link := rfl
@[simp] theorem Ev.start_notices (s : State) : (Ev.start s).notices = s.notices := rfl
@[simp] theorem Ev.start_tables (s : State) : (Ev.start s).tables = s.tables := rfl
@[simp] theorem Ev.start_store (s : State) : (Ev.start s).store = s.store := rfl
@[simp] theorem Ev.start_pins (s : State) : (Ev.start s).pins = s.pins := rfl
@[simp] theorem Ev.start_now (s : State) : (Ev.start s).now = s.now := rfl
@[simp] theorem Ev.start_pending (s : State) : (Ev.start s).pending = s.pending := rfl
@[simp] theorem Ev.start_ans (s : State) : (Ev.start s).ans = none := rfl
@[simp] theorem Ev.start_act (s : State) : (Ev.start s).act = none := rfl
@[simp] theorem Ev.start_tgtChanged (s : State) : (Ev.start s).tgtChanged = false := rfl
@[simp] theorem Ev.start_arb (s : State) : (Ev.start s).arb = false := rfl
@[simp] theorem Ev.start_planEnded (s : State) : (Ev.start s).planEnded = false := rfl
@[simp] theorem Ev.start_stDirty (s : State) : (Ev.start s).stDirty = false := rfl
@[simp] theorem Ev.start_pwDirty (s : State) : (Ev.start s).pwDirty = false := rfl
@[simp] theorem Ev.finish_sys : e.finish.sys = e.sys := rfl
@[simp] theorem Ev.finish_target : e.finish.target = e.target := rfl
@[simp] theorem Ev.finish_retVal : e.finish.retVal = e.retVal := rfl
@[simp] theorem Ev.finish_retArmed : e.finish.retArmed = e.retArmed := rfl
@[simp] theorem Ev.finish_wakeQ : e.finish.wakeQ = e.wakeQ := rfl
@[simp] theorem Ev.finish_keyHold : e.finish.keyHold = e.keyHold := rfl
@[simp] theorem Ev.finish_rails : e.finish.rails = e.rails := rfl
@[simp] theorem Ev.finish_plans : e.finish.plans = e.plans := rfl
@[simp] theorem Ev.finish_run : e.finish.run = e.run := rfl
@[simp] theorem Ev.finish_reqs : e.finish.reqs = e.reqs := rfl
@[simp] theorem Ev.finish_hsMemory : e.finish.hsMemory = e.hsMemory := rfl
@[simp] theorem Ev.finish_planLevels : e.finish.planLevels = e.planLevels := rfl
@[simp] theorem Ev.finish_pulse : e.finish.pulse = e.pulse := rfl
@[simp] theorem Ev.finish_sup : e.finish.sup = e.sup := rfl
@[simp] theorem Ev.finish_lockLevel : e.finish.lockLevel = e.lockLevel := rfl
@[simp] theorem Ev.finish_lockTimer : e.finish.lockTimer = e.lockTimer := rfl
@[simp] theorem Ev.finish_watch : e.finish.watch = e.watch := rfl
@[simp] theorem Ev.finish_scan : e.finish.scan = e.scan := rfl
@[simp] theorem Ev.finish_bud : e.finish.bud = e.bud := rfl
@[simp] theorem Ev.finish_ride : e.finish.ride = e.ride := rfl
@[simp] theorem Ev.finish_shutdown : e.finish.shutdown = e.shutdown := rfl
@[simp] theorem Ev.finish_tiers : e.finish.tiers = e.tiers := rfl
@[simp] theorem Ev.finish_limit : e.finish.limit = e.limit := rfl
@[simp] theorem Ev.finish_thermal : e.finish.thermal = e.thermal := rfl
@[simp] theorem Ev.finish_faults : e.finish.faults = e.faults := rfl
@[simp] theorem Ev.finish_link : e.finish.link = e.link := rfl
@[simp] theorem Ev.finish_notices : e.finish.notices = e.finalNotices := rfl
@[simp] theorem Ev.finish_tables : e.finish.tables = e.tables := rfl
@[simp] theorem Ev.finish_store : e.finish.store = e.store := rfl
@[simp] theorem Ev.finish_pins : e.finish.pins = e.pins := rfl
@[simp] theorem Ev.finish_now : e.finish.now = e.now := rfl
@[simp] theorem Ev.finish_pending : e.finish.pending = e.pending := rfl

/-- A wake is barred exactly while BOARD_SNAP runs in COMMITTED (R122). -/
@[simp] theorem State.wakeBarred_eq_true (s : State) :
    s.wakeBarred = true ↔ s.runningPlan = some .boardSnap ∧ s.ride.state = .committed := by
  simp [State.wakeBarred, State.isRunning]

/-- When a wake is effective (R13, R122), in the states' and the plans' names. -/
theorem State.wakeEffective_eq_true (s : State) :
    s.wakeEffective = true ↔
      (s.sys = .standby ∨ ((s.sys = .boardOn ∨ s.sys = .panelOn)
          ∧ (s.runningPlan = some .boardDown ∨ s.runningPlan = some .boardSnap)))
        ∧ ¬ (s.runningPlan = some .boardSnap ∧ s.ride.state = .committed) := by
  unfold State.wakeEffective
  cases h : s.sys <;> simp [State.wakeBarred, State.isRunning] <;> tauto

end Sys2Proof.Machine
end

