-- ==== Sys2Proof/Laws/Frame.lean ====
section
/-! SUPPORT. What the operations of the blocks and of the engine leave alone, said once for each: the queue and the
clock, the working tables, the pins, the store, the link, the scanner and the budget are untouched; the notice keys
stay distinct; fault counts never drop and stay within 0..255; and, but for a rail clear, a FAULTED rail stays FAULTED
(R23, R150, R168). -/

namespace Sys2Proof.Machine

-- One after the other: in parallel these proofs wait for one another's equation lemmas, each in a thread of its own.
set_option Elab.async false

/-- What every operation of a block or of the engine leaves alone. `p` holds of the rails that the operation clears not. -/
structure Ev.Keeps (p : Rail → Prop) (e e' : Ev) : Prop where
  pending : e'.pending = e.pending
  now : e'.now = e.now
  tables : e'.tables = e.tables
  pins : e'.pins = e.pins
  store : e'.store = e.store
  link : e'.link = e.link
  scan : e'.scan = e.scan
  bud : e'.bud = e.bud
  keys : keysDistinct e.notices → keysDistinct e'.notices
  occ : ∀ i : Fin 15, e.faults[i].occurrences ≤ e'.faults[i].occurrences
  occTop : ∀ i : Fin 15, e.faults[i].occurrences ≤ 255 → e'.faults[i].occurrences ≤ 255
  faulted : ∀ r : Rail, p r → e.rails[r].state = .faulted → e'.rails[r].state = .faulted

namespace Ev.Keeps

variable {p : Rail → Prop} {e e₁ e₂ : Ev}

theorem refl : Ev.Keeps p e e where
  pending := rfl
  now := rfl
  tables := rfl
  pins := rfl
  store := rfl
  link := rfl
  scan := rfl
  bud := rfl
  keys := id
  occ _ := le_rfl
  occTop _ := id
  faulted _ _ := id

theorem trans (h : Ev.Keeps p e e₁) (h' : Ev.Keeps p e₁ e₂) : Ev.Keeps p e e₂ where
  pending := h'.pending.trans h.pending
  now := h'.now.trans h.now
  tables := h'.tables.trans h.tables
  pins := h'.pins.trans h.pins
  store := h'.store.trans h.store
  link := h'.link.trans h.link
  scan := h'.scan.trans h.scan
  bud := h'.bud.trans h.bud
  keys := h'.keys ∘ h.keys
  occ i := (h.occ i).trans (h'.occ i)
  occTop i := h'.occTop i ∘ h.occTop i
  faulted r hp := h'.faulted r hp ∘ h.faulted r hp

/-- A fold of operations that each keep the frame keeps it. -/
theorem foldl {α : Type} {f : Ev → α → Ev} (h : ∀ e a, Ev.Keeps p e (f e a)) (l : List α) (e : Ev) :
    Ev.Keeps p e (l.foldl f e) := by
  induction l generalizing e with
  | nil => exact refl
  | cons a l ih => exact (h e a).trans (ih (f e a))

/-- An update that touches none of the fields named keeps the frame. -/
theorem ofEq (h1 : e₁.pending = e.pending := by rfl) (h2 : e₁.now = e.now := by rfl)
    (h3 : e₁.tables = e.tables := by rfl) (h4 : e₁.pins = e.pins := by rfl) (h5 : e₁.store = e.store := by rfl)
    (h6 : e₁.link = e.link := by rfl) (h7 : e₁.scan = e.scan := by rfl) (h8 : e₁.bud = e.bud := by rfl)
    (h9 : e₁.notices = e.notices := by rfl) (h10 : e₁.faults = e.faults := by rfl)
    (h11 : e₁.rails = e.rails := by rfl) : Ev.Keeps p e e₁ where
  pending := h1
  now := h2
  tables := h3
  pins := h4
  store := h5
  link := h6
  scan := h7
  bud := h8
  keys h := h9 ▸ h
  occ _ := h10 ▸ le_rfl
  occTop _ h := h10 ▸ h
  faulted _ _ h := h11 ▸ h

end Ev.Keeps

section
variable {p : Rail → Prop} (e : Ev)

/-! ### Queue keys -/

theorem retake_keys (k : NoticeKey) (b : NoticeBody) (q : List Notice) :
    (retake k b q).map Notice.key = q.map Notice.key := by
  induction q with
  | nil => rfl
  | cons n q ih =>
    simp only [retake, List.map_cons] at *
    rw [ih]
    split <;> rfl

theorem enqueue_keysDistinct {q : List Notice} (k : NoticeKey) (b : NoticeBody) (h : keysDistinct q) :
    keysDistinct (enqueue q k b) := by
  unfold enqueue
  split
  · rename_i hk
    simpa [keysDistinct, retake_keys] using h
  · rename_i hk
    simp only [keysDistinct, List.map_append, List.map_cons, List.map_nil]
    refine List.Nodup.append h (List.nodup_singleton k) ?_
    simpa [List.any_eq_true] using hk

theorem finalNotices_keys : e.finalNotices.map Notice.key = e.notices.map Notice.key := by
  unfold Ev.finalNotices
  split <;> split <;> simp [retake_keys]

/-! ### The named updates -/

theorem Ev.setRail_frame (r : Rail) (f : RailRt → RailRt)
    (h : p r → e.rails[r].state = .faulted → (f e.rails[r]).state = .faulted) : e.Keeps p (e.setRail r f) where
  pending := rfl
  now := rfl
  tables := rfl
  pins := rfl
  store := rfl
  link := rfl
  scan := rfl
  bud := rfl
  keys := id
  occ _ := le_rfl
  occTop _ := id
  faulted r' hp hr := by
    by_cases hrr : r.val = r'.val
    · have : r = r' := Fin.ext hrr
      subst this
      simpa using h hp hr
    · simpa [Vector.getElem_set, hrr] using hr

theorem Ev.setFault_frame (i : Fin 15) (f : FaultRec → FaultRec)
    (h : e.faults[i].occurrences ≤ (f e.faults[i]).occurrences)
    (h' : e.faults[i].occurrences ≤ 255 → (f e.faults[i]).occurrences ≤ 255) : e.Keeps p (e.setFault i f) where
  pending := rfl
  now := rfl
  tables := rfl
  pins := rfl
  store := rfl
  link := rfl
  scan := rfl
  bud := rfl
  keys := id
  occ j := by
    by_cases hij : i.val = j.val
    · have : i = j := Fin.ext hij
      subst this
      simpa using h
    · simp [hij]
  occTop j hj := by
    by_cases hij : i.val = j.val
    · have : i = j := Fin.ext hij
      subst this
      simpa using h' hj
    · simpa [Vector.getElem_set, hij] using hj
  faulted _ _ := id

theorem Ev.notice_frame (k : NoticeKey) (b : NoticeBody) : e.Keeps p (e.notice k b) where
  pending := rfl
  now := rfl
  tables := rfl
  pins := rfl
  store := rfl
  link := rfl
  scan := rfl
  bud := rfl
  keys := enqueue_keysDistinct k b
  occ _ := le_rfl
  occTop _ := id
  faulted _ _ := id

theorem Ev.withdraw_frame (k : NoticeKey) : e.Keeps p (e.withdraw k) where
  pending := rfl
  now := rfl
  tables := rfl
  pins := rfl
  store := rfl
  link := rfl
  scan := rfl
  bud := rfl
  keys h := h.sublist (List.filter_sublist.map _)
  occ _ := le_rfl
  occTop _ := id
  faulted _ _ := id

theorem Ev.stateNotice_frame : e.Keeps p e.stateNotice := { e.notice_frame (p := p) .state e.stateBody with }

theorem Ev.powerNotice_frame : e.Keeps p e.powerNotice := { e.notice_frame (p := p) .power e.powerBody with }

theorem Ev.setPlan_frame (q : PlanId) (f : PlanRt → PlanRt) : e.Keeps p (e.setPlan q f) :=
  .ofEq

theorem Ev.setTier_frame (k : Fin 4) (f : TierRt → TierRt) : e.Keeps p (e.setTier k f) :=
  .ofEq

theorem Ev.setWakeQ_frame (w : WakeLine) (q : WakeQ) : e.Keeps p (e.setWakeQ w q) :=
  .ofEq

theorem Ev.setPlanLevel_frame (l : LineId) (v : Level) : e.Keeps p (e.setPlanLevel l v) :=
  .ofEq

theorem Ev.setWait_frame (w : Wait) : e.Keeps p (e.setWait w) :=
  .ofEq

theorem Ev.answer_frame (a : Answer) : e.Keeps p (e.answer a) := .ofEq

theorem Ev.answerOn_frame (r : Rail) (a : Answer) : e.Keeps p (e.answerOn r a) := by
  unfold Ev.answerOn
  split
  · exact e.answer_frame a
  · exact .refl

theorem Ev.answerOff_frame (r : Rail) (a : Answer) : e.Keeps p (e.answerOff r a) := by
  unfold Ev.answerOff
  split
  · exact e.answer_frame a
  · exact .refl

/-! ### Fault records -/

theorem satInc_le {m n : Nat} : n ≤ satInc m n := by
  unfold satInc
  split <;> omega

theorem satInc_le_max {m n : Nat} (h : n ≤ m) : satInc m n ≤ m := by
  unfold satInc
  split <;> omega

theorem Ev.faultNotice_frame (i : Fin 15) : e.Keeps p (e.faultNotice i) := e.notice_frame _ _

theorem Ev.occurrence_frame (i : Fin 15) (o : Occurrence) : e.Keeps p (e.occurrence i o) :=
  (e.setFault_frame i _ satInc_le satInc_le_max).trans (Ev.faultNotice_frame _ i)

theorem Ev.occurrenceAct_frame (i : Fin 15) (o : Occurrence) : e.Keeps p (e.occurrenceAct i o) :=
  (e.occurrence_frame i o).trans (.ofEq)

theorem Ev.conditionEnded_frame (i : Fin 15) : e.Keeps p (e.conditionEnded i) := by
  have h := e.setFault_frame (p := p) i (fun f => { f with condition := false }) le_rfl id
  unfold Ev.conditionEnded
  split
  · dsimp only
    split
    · exact h
    · exact h.trans (Ev.faultNotice_frame _ i)
  · exact .refl

/-! ### Rails -/

theorem Ev.railGoOn_frame (r : Rail) (h : p r → e.rails[r].state ≠ .faulted) : e.Keeps p (e.railGoOn r) :=
  (e.setRail_frame r _ fun hp hf => absurd hf (h hp)).trans (Ev.answerOn_frame _ r _)

theorem Ev.tryOn_frame (r : Rail) : e.Keeps p (e.tryOn r) := by
  unfold Ev.tryOn
  split
  · rename_i h
    exact e.railGoOn_frame r fun _ hf => absurd (h.1.symm.trans hf) (by decide)
  · exact .refl

theorem Ev.railGoShed_frame (r : Rail) (h : p r → e.rails[r].state ≠ .faulted) : e.Keeps p (e.railGoShed r) :=
  (e.setRail_frame r _ fun hp hf => absurd hf (h hp)).trans (Ev.answerOn_frame _ r _)

theorem Ev.beginAttempt_frame (r : Rail) (k : Nat) (h : p r → e.rails[r].state ≠ .faulted) :
    e.Keeps p (e.beginAttempt r k) := by
  unfold Ev.beginAttempt
  split
  · exact e.railGoShed_frame r h
  · exact (e.setRail_frame r _ fun hp hf => absurd hf (h hp)).trans (Ev.tryOn_frame _ r)

theorem Ev.rampStart_frame (r : Rail) (h : p r → e.rails[r].state ≠ .faulted) : e.Keeps p (e.rampStart r) :=
  e.beginAttempt_frame r 1 h

theorem Ev.homeTest_frame (r : Rail) (h : p r → e.rails[r].state ≠ .faulted) : e.Keeps p (e.homeTest r) := by
  unfold Ev.homeTest
  split
  · exact e.rampStart_frame r h
  · exact e.setRail_frame r _ fun hp hf => absurd hf (h hp)

theorem Ev.drainEnd_frame (r : Rail) (late : Bool) (h : p r → e.rails[r].state ≠ .faulted) :
    e.Keeps p (e.drainEnd r late) := by
  unfold Ev.drainEnd
  dsimp only
  split
  · have h1 := e.setRail_frame (p := p) r
      (fun x => { x with state := .off, timer := none, clearedInDrain := false }) fun hp hf => absurd hf (h hp)
    split
    · exact h1.trans (Ev.rampStart_frame _ r fun _ => by simp)
    · split
      · exact (h1.trans (Ev.homeTest_frame _ r fun _ => by simp)).trans (Ev.answerOff_frame _ r _)
      · exact h1.trans (Ev.answerOff_frame _ r _)
  · split
    · exact e.railGoShed_frame r h
    · exact e.rampStart_frame r h
  · exact e.setRail_frame r _ fun hp hf => absurd hf (h hp)
  · exact ((e.setRail_frame r _ fun hp hf => absurd hf (h hp)).trans (Ev.answerOn_frame _ r _)).trans
      (Ev.answerOff_frame _ r _)
  · exact e.beginAttempt_frame r _ h

theorem Ev.dropDetectors_frame (r : Rail) : e.Keeps p (e.dropDetectors r) := by
  unfold Ev.dropDetectors
  split
  · exact (e.setRail_frame r (fun x => { x with winDetector := false, pgDetector := false }) fun _ hf => hf).trans
      (Ev.conditionEnded_frame _ _)
  · exact .refl

theorem Ev.conditionEnded_rails (i : Fin 15) : (e.conditionEnded i).rails = e.rails := by
  unfold Ev.conditionEnded
  split
  · dsimp only
    split <;> rfl
  · rfl

theorem Ev.dropDetectors_state (r : Rail) : (e.dropDetectors r).rails[r].state = e.rails[r].state := by
  unfold Ev.dropDetectors
  split
  · simp [Ev.conditionEnded_rails]
  · rfl

theorem Ev.drainStart_frame (r : Rail) (d : Dest) (h : p r → e.rails[r].state ≠ .faulted) :
    e.Keeps p (e.drainStart r d) := by
  unfold Ev.drainStart
  dsimp only
  have h1 := (e.dropDetectors_frame (p := p) r).trans
    (Ev.setRail_frame _ r (fun x => { x with
      state := .draining, dest := d, timer := e.after (e.railCfg r).drainMs, winHalf := false,
      clearedInDrain := false }) fun hp hf => absurd ((e.dropDetectors_state r).symm.trans hf) (h hp))
  split
  · exact h1.trans (Ev.drainEnd_frame _ r _ fun _ => by simp)
  · exact h1

theorem Ev.respondLatch_frame (r : Rail) (c : FaultCause) (v : Nat) (h : p r → e.rails[r].state ≠ .faulted) :
    e.Keeps p (e.respondLatch r c v) :=
  (e.drainStart_frame r _ h).trans (Ev.occurrenceAct_frame _ _ _)

theorem Ev.respondRetry_frame (r : Rail) (c : FaultCause) (v : Nat) (h : p r → e.rails[r].state ≠ .faulted) :
    e.Keeps p (e.respondRetry r c v) :=
  (e.drainStart_frame r _ h).trans (Ev.occurrence_frame _ _ _)

theorem Ev.railFault_frame (r : Rail) (c : FaultCause) (v : Nat) (h : p r → e.rails[r].state ≠ .faulted) :
    e.Keeps p (e.railFault r c v) := by
  unfold Ev.railFault
  split
  · exact e.respondLatch_frame r c v h
  · split
    · exact e.respondRetry_frame r c v h
    · exact e.respondLatch_frame r c v h
  · exact e.occurrence_frame _ _
  · exact .refl

theorem Ev.detectorGone_frame (r : Rail) : e.Keeps p (e.detectorGone r) := by
  unfold Ev.detectorGone
  split
  · exact .refl
  · exact e.conditionEnded_frame _

theorem Ev.judgeWindow_frame (r : Rail) (mv : Nat) (h : p r → e.rails[r].state ≠ .faulted) :
    e.Keeps p (e.judgeWindow r mv) := by
  unfold Ev.judgeWindow
  dsimp only
  split
  · have h1 := e.setRail_frame (p := p) r (fun x => { x with oow := 0, winDetector := false }) fun _ hf => hf
    split
    · exact h1.trans (Ev.detectorGone_frame _ r)
    · exact h1
  · split
    · exact .refl
    · split
      · exact e.setRail_frame r _ fun _ hf => hf
      · exact (e.setRail_frame r _ fun _ hf => hf).trans (Ev.railFault_frame _ r _ _ fun hp => by simpa using h hp)

theorem Ev.rampConversion_frame (r : Rail) (mv : Nat) : e.Keeps p (e.rampConversion r mv) := by
  unfold Ev.rampConversion
  split
  · exact (e.setRail_frame r (fun x => { x with winHalf := true }) fun _ hf => hf).trans (Ev.tryOn_frame _ r)
  · exact .refl

theorem Ev.drainConversion_frame (r : Rail) (mv : Nat) (h : p r → e.rails[r].state ≠ .faulted) :
    e.Keeps p (e.drainConversion r mv) := by
  unfold Ev.drainConversion
  split
  · exact e.drainEnd_frame r _ h
  · exact .refl

theorem Ev.pgQualified_frame (r : Rail) (l : Level) : e.Keeps p (e.pgQualified r l) := by
  have h1 := e.setRail_frame (p := p) r (fun x => { x with pgLevel := l, pgTimer := none }) fun _ hf => hf
  unfold Ev.pgQualified
  dsimp only
  split
  · exact h1.trans (Ev.tryOn_frame _ r)
  · rename_i hs
    split
    · split
      · split
        · exact h1
        · exact (h1.trans (Ev.setRail_frame _ r (fun x => { x with pgDetector := true }) fun _ hf => hf)).trans
            (Ev.railFault_frame _ r _ _ fun _ => by simp_all)
      · split
        · exact (h1.trans (Ev.setRail_frame _ r (fun x => { x with pgDetector := false }) fun _ hf => hf)).trans
            (Ev.detectorGone_frame _ r)
        · exact h1
    · exact h1
  · rename_i hs
    split
    · exact h1.trans (Ev.drainEnd_frame _ r _ fun _ => by simp_all)
    · exact h1
  all_goals exact h1

theorem Ev.pgLook_frame (r : Rail) : e.Keeps p (e.pgLook r) := by
  unfold Ev.pgLook
  split
  · split
    · exact e.setRail_frame r _ fun _ hf => hf
    · exact e.setRail_frame r _ fun _ hf => hf
  · exact .refl

theorem Ev.pgStop_frame (r : Rail) : e.Keeps p (e.pgStop r) := e.setRail_frame r _ fun _ hf => hf

theorem Ev.answerOn_rails (r : Rail) (a : Answer) : (e.answerOn r a).rails = e.rails := by
  unfold Ev.answerOn
  split <;> rfl

theorem Ev.rampExpiry_frame (r : Rail) (h : p r → e.rails[r].state ≠ .faulted) : e.Keeps p (e.rampExpiry r) := by
  unfold Ev.rampExpiry
  dsimp only
  split
  · exact e.drainStart_frame r _ h
  · exact ((e.answerOn_frame r _).trans
      (Ev.drainStart_frame _ r _ fun hp => by rw [Ev.answerOn_rails]; exact h hp)).trans
      (Ev.occurrenceAct_frame _ _ _)

theorem Ev.drainExpiry_frame (r : Rail) (h : p r → e.rails[r].state ≠ .faulted) : e.Keeps p (e.drainExpiry r) :=
  (e.occurrence_frame _ _).trans (Ev.drainEnd_frame _ r _ h)

theorem Ev.retryExpiry_frame (r : Rail) (h : p r → e.rails[r].state ≠ .faulted) : e.Keeps p (e.retryExpiry r) :=
  (e.setRail_frame r (fun x => { x with retryCount := satInc 255 x.retryCount, timer := none }) fun _ hf => hf).trans
    (Ev.rampStart_frame _ r fun hp => by simpa using h hp)

theorem Ev.offRequest_frame (r : Rail) : e.Keeps p (e.offRequest r) := by
  have h1 := e.setRail_frame (p := p) r (fun x => { x with retryCount := 0 }) fun _ hf => hf
  unfold Ev.offRequest
  dsimp only
  split
  · exact h1.trans (Ev.answerOff_frame _ r _)
  · exact h1.trans (Ev.answerOff_frame _ r _)
  · exact h1.trans (Ev.drainStart_frame _ r _ fun _ => by simp_all)
  · exact h1.trans (Ev.drainStart_frame _ r _ fun _ => by simp_all)
  · split
    · exact h1
    · exact h1
    all_goals exact h1.trans (Ev.setRail_frame _ r _ fun _ hf => hf)
  all_goals exact (h1.trans (Ev.setRail_frame _ r _ fun _ hf => by simp_all)).trans (Ev.answerOff_frame _ r _)

theorem Ev.enableRequest_frame (r : Rail) : e.Keeps p (e.enableRequest r) := by
  unfold Ev.enableRequest
  split
  · split
    · exact e.answerOn_frame r _
    · exact e.rampStart_frame r fun _ => by simp_all
    · exact e.answerOn_frame r _
    · exact e.answerOn_frame r _
    all_goals exact .refl
  · exact e.answerOn_frame r _

theorem Ev.shedRequest_frame (r : Rail) : e.Keeps p (e.shedRequest r) := by
  unfold Ev.shedRequest
  split
  · exact e.drainStart_frame r _ fun _ => by simp_all
  · exact e.drainStart_frame r _ fun _ => by simp_all
  · split
    · exact e.setRail_frame r _ fun _ hf => hf
    · exact .refl
  all_goals exact .refl

theorem Ev.unshedRequest_frame (r : Rail) : e.Keeps p (e.unshedRequest r) := by
  unfold Ev.unshedRequest
  split
  · exact e.rampStart_frame r fun _ => by simp_all
  · exact .refl

/-- A rail clear may take its own rail out of FAULTED (R42), and no other. -/
theorem Ev.railClear_frame (r : Rail) : e.Keeps (· ≠ r) (e.railClear r) := by
  have h1 := e.setRail_frame (p := (· ≠ r)) r (fun x => { x with retryCount := 0 }) fun hp => absurd rfl hp
  unfold Ev.railClear
  dsimp only
  split
  · exact h1.trans (Ev.homeTest_frame _ r fun hp => absurd rfl hp)
  · split
    · exact h1.trans (Ev.setRail_frame _ r _ fun hp => absurd rfl hp)
    · exact h1
  all_goals exact h1

end

end Sys2Proof.Machine
end

