-- ==== Sys2Proof/Laws/Engine.lean ====
section
/-! SUPPORT. The frame of the line, shed, power, ride-through and engine operations, continued from Laws/Frame.lean:
one lemma for each operation, up to the serving of an event's marks. -/

namespace Sys2Proof.Machine

-- One after the other: in parallel these proofs wait for one another's equation lemmas, each in a thread of its own.
set_option Elab.async false

section
variable {p : Rail → Prop} (e : Ev)

/-! ### Lines and supervision -/

theorem Ev.loadPlanLevels_frame : e.Keeps p e.loadPlanLevels := .ofEq

theorem Ev.pulseReplySent_frame : e.Keeps p e.pulseReplySent := by
  unfold Ev.pulseReplySent
  split <;> exact .ofEq

theorem Ev.enterGrace_frame (v : Nat) : e.Keeps p (e.enterGrace v) :=
  .trans .ofEq (Ev.occurrence_frame _ _ _)

theorem Ev.enterWatching_frame : e.Keeps p e.enterWatching := .ofEq

theorem Ev.armSupervision_frame : e.Keeps p e.armSupervision := by
  unfold Ev.armSupervision
  split
  · split
    · exact e.enterWatching_frame
    · exact e.enterGrace_frame 0
  · exact .refl

theorem Ev.endSupervision_frame : e.Keeps p e.endSupervision := by
  unfold Ev.endSupervision
  split
  · exact .refl
  · exact .ofEq
  all_goals exact .trans .ofEq (Ev.conditionEnded_frame _ _)

theorem Ev.superviseLock_frame : e.Keeps p e.superviseLock := by
  unfold Ev.superviseLock
  split
  · exact e.enterGrace_frame _
  · exact (e.conditionEnded_frame _).trans (Ev.enterWatching_frame _)
  all_goals exact .refl

theorem Ev.lockLook_frame : e.Keeps p e.lockLook := by
  unfold Ev.lockLook
  split <;> exact .ofEq

/-! ### Holds -/

theorem Ev.holdNotice_frame (k : Hold) : e.Keeps p (e.holdNotice k) := by
  cases k
  · exact .refl
  all_goals exact e.powerNotice_frame

theorem Ev.placeHold_frame (k : Hold) (t : Fin 4) : e.Keeps p (e.placeHold k t) := by
  have h1 := (e.setTier_frame (p := p) t fun x => { x with holds := x.holds.put k true }).trans
    (Ev.holdNotice_frame _ k)
  unfold Ev.placeHold
  dsimp only
  split
  · exact .refl
  · split
    · exact h1
    · exact (h1.trans (Ev.setTier_frame _ t _)).trans (.foldl (fun e r => e.shedRequest_frame r) _ _)

theorem Ev.removeHold_frame (k : Hold) (t : Fin 4) : e.Keeps p (e.removeHold k t) := by
  have h1 := (e.setTier_frame (p := p) t fun x => { x with holds := x.holds.put k false }).trans
    (Ev.holdNotice_frame _ k)
  unfold Ev.removeHold
  dsimp only
  split
  · split
    · exact h1
    · exact h1.trans (.foldl (fun e r => e.unshedRequest_frame r) _ _)
  · exact .refl

/-! ### Target, return, gate, system state -/

theorem Ev.writeTarget_frame (t : Target) : e.Keeps p (e.writeTarget t) := by
  unfold Ev.writeTarget
  split
  · exact .refl
  · exact .trans (e₁ := ({ e with target := t, retArmed := false } : Ev).stateNotice)
      (.trans .ofEq (Ev.stateNotice_frame _)) .ofEq

theorem Ev.fireReturn_frame : e.Keeps p e.fireReturn := by
  unfold Ev.fireReturn
  split
  · split
    · exact .trans .ofEq (Ev.writeTarget_frame _ _)
    · exact .ofEq
  · exact .refl

theorem Ev.gated_frame (f : Ev → Ev) : (f e).Keeps p (e.gated f) := by
  unfold Ev.gated
  split
  · exact (Ev.fireReturn_frame _).trans .ofEq
  · exact .refl

theorem Ev.keyHoldLook_frame : e.Keeps p e.keyHoldLook := by
  unfold Ev.keyHoldLook
  dsimp only
  split
  · split
    · exact .ofEq
    · exact .refl
  · split
    · exact .refl
    · exact .ofEq
  · exact .refl

theorem Ev.setSys_frame (x : SysState) : e.Keeps p (e.setSys x) := by
  unfold Ev.setSys
  split
  · exact .refl
  · exact .trans (.trans .ofEq (Ev.stateNotice_frame _))
      (Ev.keyHoldLook_frame _)

theorem Ev.enterLockout_frame : e.Keeps p e.enterLockout :=
  ((e.setSys_frame .lockout).trans (Ev.writeTarget_frame _ .standby)).trans
    .ofEq

theorem Ev.wakeWatch_frame (w : WakeLine) : e.Keeps p (e.wakeWatch w) := by
  unfold Ev.wakeWatch
  split
  · exact e.setWakeQ_frame w _
  · exact .refl

theorem Ev.wakeLine_frame (w : WakeLine) (b : Bool) : e.Keeps p (e.wakeLine w b) := by
  unfold Ev.wakeLine
  split
  · exact .refl
  · split
    any_goals exact .refl
    all_goals exact e.setWakeQ_frame w _

theorem Ev.wakeWatchAll_frame : e.Keeps p e.wakeWatchAll :=
  ((e.wakeWatch_frame .key).trans (Ev.wakeWatch_frame _ .ir)).trans (Ev.wakeWatch_frame _ .aux)

/-! ### Ride-through -/

theorem Ev.openShutdown_frame (c : ShutCause) (n : Nat) : e.Keeps p (e.openShutdown c n) :=
  .ofEq

theorem Ev.openCommit_frame (c : ShutCause) (n : Nat) : e.Keeps p (e.openCommit c n) :=
  .ofEq

theorem Ev.completeBySnap_frame (n : Nat) : e.Keeps p (e.completeBySnap n) := by
  unfold Ev.completeBySnap
  split
  · exact .ofEq
  · exact .refl

theorem Ev.writeByDown_frame (n : Nat) : e.Keeps p (e.writeByDown n) := by
  unfold Ev.writeByDown
  split
  · exact .refl
  · exact .ofEq

theorem Ev.slotTakes_frame (q : PlanId) (o : HsOutcome) : e.Keeps p (e.slotTakes q o) := by
  cases q <;> exact .ofEq

theorem Ev.enterRiding_frame : e.Keeps p e.enterRiding :=
  .trans .ofEq (Ev.powerNotice_frame _)

theorem Ev.startRide_frame : e.Keeps p e.startRide :=
  .trans .ofEq (Ev.enterRiding_frame _)

theorem Ev.enterQualify_frame : e.Keeps p e.enterQualify := by
  have h1 : e.Keeps p ({ e with
      ride.state := .qualify, ride.qualifyTimer := e.after e.cfg.ride.qualifyMs } : Ev).powerNotice :=
    .trans .ofEq (Ev.powerNotice_frame _)
  unfold Ev.enterQualify
  dsimp only
  split
  · exact h1.trans (Ev.startRide_frame _)
  · exact h1

theorem Ev.judgeDip_frame : e.Keeps p e.judgeDip := by
  unfold Ev.judgeDip
  split
  · exact e.enterQualify_frame
  · exact .refl

theorem Ev.enterNormal_frame : e.Keeps p e.enterNormal :=
  .trans (.trans (.trans .ofEq (Ev.powerNotice_frame _))
    (e.gated_frame fun e => { e with ride.state := .normal, ride.belowDip := 0 }.powerNotice)) (Ev.judgeDip_frame _)

theorem Ev.shortDip_frame : e.Keeps p e.shortDip :=
  .trans .ofEq (Ev.enterNormal_frame _)

theorem Ev.armReturn_frame : e.Keeps p e.armReturn := by
  unfold Ev.armReturn
  split
  · exact .ofEq
  · exact .refl

theorem Ev.leaveRest_frame : e.Keeps p e.leaveRest :=
  (Ev.Keeps.trans .ofEq (Ev.armReturn_frame _)).trans
    (Ev.enterNormal_frame _)

theorem Ev.enterRest_frame : e.Keeps p e.enterRest := by
  have h1 : e.Keeps p (allTiers.foldl (fun e t => e.removeHold .ride t) e) :=
    .foldl (fun e t => e.removeHold_frame .ride t) _ _
  have h2 (x : Ev) : x.Keeps p ({ x with
      ride.state := .rest, ride.restTimer := x.after x.cfg.ride.restMs } : Ev).powerNotice :=
    .trans .ofEq (Ev.powerNotice_frame _)
  unfold Ev.enterRest
  dsimp only
  split
  · exact (h1.trans (h2 _)).trans (Ev.leaveRest_frame _)
  · exact h1.trans (h2 _)

theorem Ev.rideOnPlanEnd_frame (q : PlanId) (o : PlanOutcome) (n : Nat) : e.Keeps p (e.rideOnPlanEnd q o n) := by
  unfold Ev.rideOnPlanEnd
  split
  · dsimp only
    split
    · exact (e.completeBySnap_frame n).trans (Ev.enterRest_frame _)
    · exact e.completeBySnap_frame n
  · split
    · exact e.writeByDown_frame n
    · exact .refl
  all_goals exact .refl

theorem Ev.restoreRelease_frame : e.Keeps p e.restoreRelease := by
  have h1 : e.Keeps p (match e.highestRide with
      | some t => e.removeHold .ride t
      | none => e) := by
    split
    · exact e.removeHold_frame .ride _
    · exact .refl
  have h2 (x : Ev) : x.Keeps p (if x.highestRide.isSome then
      { x with ride.restoreTimer := x.after x.cfg.ride.restoreIntervalMs }
      else ({ x with
        ride.restoreTimer := none
        ride.stats.recoveries := satInc 65535 x.ride.stats.recoveries
        ride.clock := x.stop x.ride.clock } : Ev).enterNormal) := by
    split
    · exact .ofEq
    · exact .trans .ofEq (Ev.enterNormal_frame _)
  exact h1.trans (h2 _)

theorem Ev.enterRestoring_frame : e.Keeps p e.enterRestoring :=
  (Ev.Keeps.trans .ofEq (Ev.powerNotice_frame _)).trans
    (Ev.restoreRelease_frame _)

theorem Ev.settlingStop_frame : e.Keeps p e.settlingStop := by
  unfold Ev.settlingStop
  split
  · exact .trans .ofEq (Ev.powerNotice_frame _)
  · exact .refl

theorem Ev.settlingBegin_frame : e.Keeps p e.settlingBegin := by
  have h1 : e.Keeps p ({ e with ride.settling := true, ride.settleTimer := e.after e.cfg.ride.settleMs } : Ev).powerNotice :=
    .trans .ofEq (Ev.powerNotice_frame _)
  unfold Ev.settlingBegin
  dsimp only
  split
  · exact h1.trans (Ev.enterRestoring_frame _)
  · exact h1

/-! ### Snap requests and plan ends -/

theorem Ev.snapRequest_frame (q : PlanId) (c : Cause) : e.Keeps p (e.snapRequest q c) := by
  unfold Ev.snapRequest
  split
  any_goals exact .refl
  all_goals
    split
    · exact .ofEq
    all_goals exact e.setPlan_frame q _

theorem Ev.snapBoth_frame (c : Cause) : e.Keeps p (e.snapBoth c) :=
  (e.snapRequest_frame .panelSnap c).trans (Ev.snapRequest_frame _ .boardSnap c)

theorem Ev.stateOnDone_frame (q : PlanId) : e.Keeps p (e.stateOnDone q) := by
  unfold Ev.stateOnDone
  split
  any_goals exact .refl
  any_goals exact e.setSys_frame _
  · split
    · exact e.setSys_frame _
    · exact .refl
  · split
    · exact e.enterLockout_frame
    · exact e.setSys_frame _

theorem Ev.upFailed_frame : e.Keeps p e.upFailed := by
  unfold Ev.upFailed
  split
  · split
    · exact e.writeTarget_frame _
    · exact .refl
  all_goals exact .refl

theorem Ev.stateOnFailed_frame (q : PlanId) : e.Keeps p (e.stateOnFailed q) := by
  unfold Ev.stateOnFailed
  split
  any_goals exact e.upFailed_frame
  any_goals exact .refl
  · exact e.snapRequest_frame _ _
  · exact e.snapBoth_frame _

theorem Ev.stateOnEnd_frame (q : PlanId) (o : PlanOutcome) : e.Keeps p (e.stateOnEnd q o) := by
  unfold Ev.stateOnEnd
  split
  · exact (e.stateOnDone_frame q).trans (Ev.judgeDip_frame _)
  · exact e.stateOnFailed_frame q
  all_goals exact .refl

theorem Ev.endPlan_frame (run : Run) (o : PlanOutcome) (n : Nat) (c : Cause) : e.Keeps p (e.endPlan run o n c) := by
  have h1 : e.Keeps p { e.setPlan run.plan fun x => { x with
      lastOutcome := o, outcomeStep := n, outcomeCause := c } with run := none, ans := none } :=
    .ofEq
  have h2 (x : Ev) : x.Keeps p { (x.stateOnEnd run.plan o).rideOnPlanEnd run.plan o run.stepsDone with
      planEnded := true, arb := true } :=
    ((x.stateOnEnd_frame run.plan o).trans (Ev.rideOnPlanEnd_frame _ run.plan o run.stepsDone)).trans .ofEq
  exact (h1.trans (Ev.notice_frame _ _ _)).trans (h2 _)

/-! ### Steps -/

theorem Ev.beginHandshake_frame (run : Run) (ms : Nat) : e.Keeps p (e.beginHandshake run ms) := by
  have h1 : e.Keeps p ((({ e with hsMemory := .skipped } : Ev).slotTakes run.plan .skipped).answer
      (.completed .none)) :=
    .trans (.trans .ofEq (Ev.slotTakes_frame _ _ _)) (Ev.answer_frame _ _)
  have h2 : e.Keeps p ((e.setWait (.handshake (e.now + 1000 * ms))).notice .offPending
      (.offPending ms run.handshakeCause)) :=
    (e.setWait_frame _).trans (Ev.notice_frame _ _ _)
  unfold Ev.beginHandshake
  split <;> first | exact h1 | exact h2

theorem Ev.beginStep_frame : e.Keeps p e.beginStep := by
  unfold Ev.beginStep
  split
  · exact .refl
  · dsimp only
    split
    · exact (e.setWait_frame _).trans (Ev.enableRequest_frame _ _)
    · exact (e.setWait_frame _).trans (Ev.offRequest_frame _ _)
    · exact (e.setPlanLevel_frame _ _).trans (Ev.answer_frame _ _)
    · split
      · exact e.answer_frame _
      · exact e.setWait_frame _
    · split
      · exact e.answer_frame _
      · exact e.setWait_frame _
    · exact e.beginHandshake_frame _ _

theorem Ev.setException_frame (q : PlanId) (n : Nat) (c : Cause) : e.Keeps p (e.setException q n c) :=
  e.setPlan_frame q _

theorem Ev.goTo_frame (run : Run) (n : Nat) : e.Keeps p (e.goTo run n) :=
  .trans .ofEq (Ev.beginStep_frame _)

theorem Ev.goOn_frame (run : Run) : e.Keeps p (e.goOn run) := by
  unfold Ev.goOn
  split
  · split
    · exact e.endPlan_frame _ _ _ _
    · exact e.goTo_frame _ _
  · split
    · exact e.endPlan_frame _ _ _ _
    · exact e.goTo_frame _ _

theorem Ev.enterTail_frame (run : Run) (o : PlanOutcome) (c : Cause) : e.Keeps p (e.enterTail run o c) :=
  .trans .ofEq (Ev.beginStep_frame _)

theorem Ev.failMiss_frame (run : Run) (c : Cause) : e.Keeps p (e.failMiss run c) := by
  unfold Ev.failMiss
  split
  · exact (e.setException_frame _ _ _).trans (Ev.goOn_frame _ _)
  · split
    · exact e.endPlan_frame _ _ _ _
    · exact e.enterTail_frame _ _ _

theorem Ev.actOnAnswer_frame (run : Run) (a : Answer) : e.Keeps p (e.actOnAnswer run a) := by
  unfold Ev.actOnAnswer
  dsimp only
  split
  · split
    · exact e.goOn_frame _
    · split
      · exact e.failMiss_frame _ _
      · exact (e.setException_frame _ _ _).trans (Ev.goOn_frame _ _)
  · split
    · exact e.failMiss_frame _ _
    · exact (e.setException_frame _ _ _).trans (Ev.goOn_frame _ _)

theorem Ev.serveAnswer_frame : e.Keeps p e.serveAnswer := by
  unfold Ev.serveAnswer
  split
  · exact .trans .ofEq (Ev.actOnAnswer_frame _ _ _)
  all_goals exact .refl

theorem Ev.runSteps_frame (n : Nat) : e.Keeps p (e.runSteps n) := by
  induction n generalizing e with
  | zero => exact .refl
  | succ n ih =>
    unfold Ev.runSteps
    split
    · exact e.serveAnswer_frame.trans (ih _)
    · exact .refl

/-! ### Plan starts and the arbiter -/

theorem Ev.startPlan_frame (q : PlanId) : e.Keeps p (e.startPlan q) := by
  have h1 (run : Run) : e.Keeps p ({ e.setPlan q fun x =>
        { x with merged := false, excStep := 0, excCause := .none, runCount := satInc 65535 x.runCount } with
      reqs := e.reqs.put q none, run := some run, ans := none } : Ev).endSupervision :=
    .trans .ofEq (Ev.endSupervision_frame _)
  have h2 (x : Ev) : x.Keeps p (if q.isSnap then { x with pulse := .idle } else x).judgeDip := by
    split
    · exact .trans .ofEq (Ev.judgeDip_frame _)
    · exact x.judgeDip_frame
  have h3 (run : Run) (x : Ev) : x.Keeps p (if (x.cfg.plan q).bodyLast = 0 then x.endPlan run .done 0 .none
      else x.beginStep) := by
    split
    · exact x.endPlan_frame _ _ _ _
    · exact x.beginStep_frame
  exact ((h1 _).trans (h2 _)).trans (h3 _ _)

theorem Ev.withdrawService_frame (q : PlanId) : e.Keeps p (e.withdrawService q) := by
  have h1 : e.Keeps p { e.setPlan q fun x => { x with
      lastOutcome := .aborted, outcomeStep := 0, outcomeCause := .stateChanged } with reqs := e.reqs.put q none } :=
    .ofEq
  unfold Ev.withdrawService
  split
  · exact h1.trans (Ev.notice_frame _ _ _)
  · exact .refl

theorem Ev.choose_frame : e.Keeps p e.choose.1 := by
  have h1 := e.withdrawService_frame (p := p) .panelCare
  unfold Ev.choose
  dsimp only
  split
  any_goals exact .refl
  all_goals
    split
    · exact .refl
    · split
      · exact .refl
      · split
        · exact .refl
        · split
          · exact h1
          · split
            · exact h1.trans (Ev.withdrawService_frame _ .user)
            · exact h1.trans (Ev.withdrawService_frame _ .user)

theorem Ev.runArbiter_frame (n : Nat) : e.Keeps p (e.runArbiter n) := by
  induction n generalizing e with
  | zero => exact .refl
  | succ n ih =>
    have h := e.choose_frame (p := p)
    unfold Ev.runArbiter
    split
    · split
      · rename_i he
        rw [he] at h
        exact ((h.trans (Ev.startPlan_frame _ _)).trans (Ev.runSteps_frame _ _)).trans (ih _)
      · rename_i he
        rw [he] at h
        exact h
    · exact .refl

theorem Ev.arbitrate_frame : e.Keeps p e.arbitrate := by
  have h : e.Keeps p { e.runArbiter planFuel with arb := false, tgtChanged := false } :=
    (e.runArbiter_frame planFuel).trans .ofEq
  unfold Ev.arbitrate
  dsimp only
  split
  · exact (h.trans .ofEq).trans (Ev.armSupervision_frame _)
  · exact h

/-! ### Cuts, aborts, serving -/

theorem Ev.abandon_frame : e.Keeps p e.abandon := by
  unfold Ev.abandon
  split
  · exact .trans (.trans .ofEq (Ev.withdraw_frame _ _))
      (Ev.setWait_frame _ _)
  all_goals exact e.setWait_frame _

theorem Ev.cut_frame : e.Keeps p e.cut := by
  unfold Ev.cut
  split
  · split
    · exact .refl
    · exact e.abandon_frame.trans (Ev.endPlan_frame _ _ _ _ _)
  · exact .refl

theorem Ev.takeSnaps_frame : e.Keeps p e.takeSnaps := by
  unfold Ev.takeSnaps
  split
  · split
    · exact .refl
    · exact e.cut_frame.trans (Ev.arbitrate_frame _)
  · exact e.arbitrate_frame

theorem Ev.abortService_frame : e.Keeps p e.abortService := by
  unfold Ev.abortService
  split
  · split
    · split
      · exact e.abandon_frame.trans (Ev.endPlan_frame _ _ _ _ _)
      · exact (e.abandon_frame.trans (Ev.enterTail_frame _ _ _ _)).trans (Ev.runSteps_frame _ _)
    · exact .refl
  · exact .refl

theorem Ev.reportTarget_frame : e.Keeps p e.reportTarget := by
  unfold Ev.reportTarget
  split
  · exact .trans .ofEq (Ev.abortService_frame _)
  · exact .refl

theorem Ev.serve_frame : e.Keeps p e.serve := by
  have h1 := e.runSteps_frame (p := p) stepFuel
  have h2 (x : Ev) : x.Keeps p (if x.tgtChanged then { x.reportTarget with arb := true } else x) := by
    split
    · exact x.reportTarget_frame.trans .ofEq
    · exact .refl
  have h3 (x : Ev) : x.Keeps p (if x.arb then x.arbitrate else x) := by
    split
    · exact x.arbitrate_frame
    · exact .refl
  exact (h1.trans (h2 _)).trans (h3 _)

theorem Ev.openByFault_frame (i : Fin 15) : e.Keeps p (e.openByFault i) := by
  unfold Ev.openByFault
  split <;> exact e.openShutdown_frame _ _

theorem Ev.actPanel_frame : e.Keeps p e.actPanel := by
  unfold Ev.actPanel
  refine .trans (.trans ?_ (Ev.snapRequest_frame _ _ _)) (Ev.takeSnaps_frame _)
  split
  · exact (e.writeTarget_frame _).trans (Ev.reportTarget_frame _)
  · exact .refl

theorem Ev.actSystem_frame (i : Fin 15) : e.Keeps p (e.actSystem i) := by
  have h1 := (e.writeTarget_frame (p := p) .standby).trans (Ev.reportTarget_frame _)
  unfold Ev.actSystem
  dsimp only
  refine .trans (.trans ?_ (Ev.snapBoth_frame _ _)) (Ev.takeSnaps_frame _)
  split
  · exact h1.trans (Ev.openByFault_frame _ _)
  · exact h1

theorem Ev.applyAct_frame : e.Keeps p e.applyAct := by
  have h1 : e.Keeps p { e with act := none } := .ofEq
  unfold Ev.applyAct
  split
  · exact .refl
  · dsimp only
    split
    any_goals exact h1
    any_goals exact h1.trans (Ev.actSystem_frame _ _)
    exact h1.trans (Ev.actPanel_frame _)

theorem Ev.settle_frame : e.Keeps p e.settle := e.serve_frame.trans (Ev.applyAct_frame _)

end

end Sys2Proof.Machine
end

