-- ==== Sys2Proof/Laws/Commands.lean ====
section
/-! SUPPORT. What every command keeps, from the frames of Laws/Frame.lean and Laws/Engine.lean: the queue and the
clock, distinct notice keys, fault counts, and FAULTED rails for the commands that clear none. -/

namespace Sys2Proof.Machine

-- One after the other: in parallel these proofs wait for one another's equation lemmas, each in a thread of its own.
set_option Elab.async false

/-- What every command but a reset keeps; `p` holds of the rails that the command clears not. -/
structure State.KeepMost (p : Rail → Prop) (s s' : State) : Prop where
  pending : s'.pending = s.pending
  now : s'.now = s.now
  keys : keysDistinct s.notices → keysDistinct s'.notices
  occ : ∀ i : Fin 15, s.faults[i].occurrences ≤ s'.faults[i].occurrences
  occTop : ∀ i : Fin 15, s.faults[i].occurrences ≤ 255 → s'.faults[i].occurrences ≤ 255
  faulted : ∀ r : Rail, p r → s.rails[r].state = .faulted → s'.rails[r].state = .faulted

/-- What every event keeps that takes no request: the buffers and the transmitter stand too. -/
structure State.Keep (p : Rail → Prop) (s s' : State) : Prop extends State.KeepMost p s s' where
  service : s'.link.service = s.link.service
  waiting : s'.link.waiting = s.link.waiting
  tx : s'.link.tx = s.link.tx

namespace State.KeepMost

variable {p q : Rail → Prop} {s s₁ s₂ : State}

theorem refl : State.KeepMost p s s where
  pending := rfl
  now := rfl
  keys := id
  occ _ := le_rfl
  occTop _ := id
  faulted _ _ := id

theorem trans (h : State.KeepMost p s s₁) (h' : State.KeepMost p s₁ s₂) : State.KeepMost p s s₂ where
  pending := h'.pending.trans h.pending
  now := h'.now.trans h.now
  keys := h'.keys ∘ h.keys
  occ i := (h.occ i).trans (h'.occ i)
  occTop i := h'.occTop i ∘ h.occTop i
  faulted r hp := h'.faulted r hp ∘ h.faulted r hp

theorem ofEq (h1 : s₁.pending = s.pending := by rfl) (h2 : s₁.now = s.now := by rfl)
    (h3 : s₁.notices = s.notices := by rfl) (h4 : s₁.faults = s.faults := by rfl)
    (h5 : s₁.rails = s.rails := by rfl) : State.KeepMost p s s₁ where
  pending := h1
  now := h2
  keys h := h3 ▸ h
  occ _ := h4 ▸ le_rfl
  occTop _ h := h4 ▸ h
  faulted _ _ h := h5 ▸ h

end State.KeepMost

namespace State.Keep

variable {p : Rail → Prop} {s s₁ s₂ : State}

theorem refl : State.Keep p s s := { State.KeepMost.refl with service := rfl, waiting := rfl, tx := rfl }

theorem trans (h : State.Keep p s s₁) (h' : State.Keep p s₁ s₂) : State.Keep p s s₂ :=
  { h.toKeepMost.trans h'.toKeepMost with
    service := h'.service.trans h.service
    waiting := h'.waiting.trans h.waiting
    tx := h'.tx.trans h.tx }

theorem ofEq (h1 : s₁.pending = s.pending := by rfl) (h2 : s₁.now = s.now := by rfl)
    (h3 : s₁.notices = s.notices := by rfl) (h4 : s₁.faults = s.faults := by rfl)
    (h5 : s₁.rails = s.rails := by rfl) (h6 : s₁.link.service = s.link.service := by rfl)
    (h7 : s₁.link.waiting = s.link.waiting := by rfl) (h8 : s₁.link.tx = s.link.tx := by rfl) :
    State.Keep p s s₁ :=
  { State.KeepMost.ofEq h1 h2 h3 h4 h5 with service := h6, waiting := h7, tx := h8 }

end State.Keep

theorem Ev.Keeps.keep {p : Rail → Prop} {e e' : Ev} (h : e.Keeps p e') : State.Keep p e.toState e'.toState where
  pending := h.pending
  now := h.now
  keys := h.keys
  occ := h.occ
  occTop := h.occTop
  faulted := h.faulted
  service := congrArg Link.service h.link
  waiting := congrArg Link.waiting h.link
  tx := congrArg Link.tx h.link

/-- The end of an event keeps everything. -/
theorem Ev.finish_keep {p : Rail → Prop} (e : Ev) : State.Keep p e.toState e.finish where
  pending := rfl
  now := rfl
  keys hk := by unfold keysDistinct Ev.finish at *; rw [finalNotices_keys]; exact hk
  occ _ := le_rfl
  occTop _ := id
  faulted _ _ := id
  service := rfl
  waiting := rfl
  tx := rfl

/-- An event keeps what its operation keeps. -/
theorem runEvent_keep {p : Rail → Prop} {f : Ev → Ev} (h : ∀ e : Ev, State.Keep p e.toState (f e).toState) (s : State) :
    ∃ t, runEvent f s = .next t ∧ State.Keep p s t :=
  ⟨_, rfl, (h (Ev.start s)).trans (Ev.finish_keep _)⟩

/-- An event that takes a request keeps what its operation keeps. -/
theorem runEvent_keepMost {p : Rail → Prop} {f : Ev → Ev} (h : ∀ e : Ev, State.KeepMost p e.toState (f e).toState)
    (s : State) : ∃ t, runEvent f s = .next t ∧ State.KeepMost p s t :=
  ⟨_, rfl, (h (Ev.start s)).trans (Ev.finish_keep _).toKeepMost⟩

section
variable {p : Rail → Prop} (e : Ev)

/-! ### Ride-through events -/

theorem Ev.commit_frame (b : Bool) : e.Keeps p (e.commit b) := by
  have h1 (x : Ev) : x.Keeps p ({ x with ride.stats.commits := satInc 65535 x.ride.stats.commits } : Ev).powerNotice :=
    .trans .ofEq (Ev.powerNotice_frame _)
  have h2 : e.Keeps p (({ e.enterCommitted with retVal := some e.enterCommitted.target, retArmed := false } :
      Ev).writeTarget .standby).reportTarget :=
    .trans (.trans .ofEq (Ev.writeTarget_frame _ _)) (Ev.reportTarget_frame _)
  exact (((h2.trans (Ev.openCommit_frame _ _ _)).trans (h1 _)).trans (Ev.snapBoth_frame _ _)).trans
    (Ev.takeSnaps_frame _)

theorem Ev.countBelow_frame (n : Nat) : e.Keeps p (e.countBelow n) := .ofEq

theorem Ev.rideHold_frame (t : Fin 4) : e.Keeps p (e.rideHold t) := by
  unfold Ev.rideHold
  split
  · exact (e.placeHold_frame _ _).trans (Ev.serve_frame _)
  · exact .refl

theorem Ev.settlingStep_frame (n : Nat) : e.Keeps p (e.settlingStep n) := by
  unfold Ev.settlingStep
  split
  · split
    · exact e.settlingStop_frame
    · exact .refl
  · split
    · exact e.settlingBegin_frame
    · exact .refl

theorem Ev.ridingEvaluation_frame (n : Nat) : e.Keeps p (e.ridingEvaluation n) := by
  have h1 : e.Keeps p (allTiers.foldl Ev.rideHold e) := .foldl (fun e t => e.rideHold_frame t) _ _
  unfold Ev.ridingEvaluation
  dsimp only
  split
  · exact h1.trans (Ev.commit_frame _ _)
  · exact h1.trans (Ev.settlingStep_frame _ _)

theorem Ev.rideEvaluation_frame (n : Nat) : e.Keeps p (e.rideEvaluation n) := by
  have h1 := e.countBelow_frame (p := p) n
  unfold Ev.rideEvaluation
  dsimp only
  split
  · exact h1.trans (Ev.judgeDip_frame _)
  · split
    · exact h1.trans (Ev.shortDip_frame _)
    · exact h1
  · exact h1.trans (Ev.ridingEvaluation_frame _ _)
  · split
    · exact h1.trans (Ev.enterRiding_frame _)
    · exact h1
  all_goals exact h1

theorem Ev.acChange_frame (b : Bool) : ({ e with pins.acOk := b } : Ev).Keeps p (e.acChange b) := by
  have h1 := e.gated_frame (p := p) fun e => { e with pins.acOk := b }
  unfold Ev.acChange
  dsimp only
  split
  · exact h1.trans (Ev.judgeDip_frame _)
  · split
    · exact h1.trans (Ev.shortDip_frame _)
    · exact h1
  · split
    · exact h1
    · exact h1.trans (Ev.settlingStop_frame _)
  · split
    · exact h1
    · exact h1.trans (Ev.enterRiding_frame _)
  all_goals exact h1

/-! ### Limit and thermal checks -/

theorem Ev.limitEnded_frame : e.Keeps p e.limitEnded := by
  unfold Ev.limitEnded
  split
  · exact .refl
  · exact e.conditionEnded_frame _

theorem Ev.softEvent_frame (n : Nat) : e.Keeps p (e.softEvent n) := by
  have h1 (o : Occurrence) : e.Keeps p (({ e with
      limit.softPresent := true, limit.softCount := 0, limit.releaseCount := 0 } : Ev).occurrence srcBusCurrent o) :=
    .trans .ofEq (Ev.occurrence_frame _ _ _)
  have h2 (x : Ev) (l : LimitRt) (k : Hold) (t : Fin 4) : x.Keeps p (({ x with limit := l } : Ev).placeHold k t) :=
    .trans .ofEq (Ev.placeHold_frame _ _ _)
  have h3 (x : Ev) (l : LimitRt) : x.Keeps p ({ x with limit := l } : Ev) := .ofEq
  unfold Ev.softEvent
  dsimp only
  split
  any_goals exact (h1 _).trans (h2 _ _ _ _)
  all_goals exact (h1 _).trans (h3 _ _)

theorem Ev.dropLimitHold_frame : e.Keeps p e.dropLimitHold := by
  unfold Ev.dropLimitHold
  split
  · exact .trans .ofEq (Ev.removeHold_frame _ _ _)
  · exact .refl

theorem Ev.endEpisode_frame : e.Keeps p e.endEpisode := by
  have h1 (x : Ev) (l : LimitRt) : x.Keeps p ({ x with limit := l } : Ev).limitEnded :=
    .trans .ofEq (Ev.limitEnded_frame _)
  exact e.dropLimitHold_frame.trans (h1 _ _)

theorem Ev.softTest_frame (n : Nat) : e.Keeps p (e.softTest n) := by
  have h1 (l : LimitRt) : e.Keeps p ({ e with limit := l } : Ev) := .ofEq
  have h2 (l : LimitRt) : e.Keeps p ({ e with limit := l } : Ev).limitEnded := (h1 l).trans (Ev.limitEnded_frame _)
  unfold Ev.softTest Ev.softWatch Ev.softEpisode Ev.softLatched
  dsimp only
  repeat' split
  all_goals first
    | exact h1 _
    | exact h2 _
    | exact .refl
    | exact e.softEvent_frame n
    | exact e.endEpisode_frame

theorem Ev.hardTest_frame (n : Nat) : e.Keeps p (e.hardTest n) := by
  have h1 (l : LimitRt) : e.Keeps p ({ e with limit := l } : Ev) := .ofEq
  have h2 (l : LimitRt) : e.Keeps p ({ e with limit := l } : Ev).limitEnded := (h1 l).trans (Ev.limitEnded_frame _)
  have h3 (l : LimitRt) (o : Occurrence) : e.Keeps p (({ e with limit := l } : Ev).occurrenceAct srcBusCurrent o) :=
    (h1 l).trans (Ev.occurrenceAct_frame _ _ _)
  unfold Ev.hardTest
  dsimp only
  repeat' split
  all_goals first
    | exact h1 _
    | exact h2 _
    | exact h3 _ _

theorem Ev.limitEvaluation_frame (n : Nat) : e.Keeps p (e.limitEvaluation n) := by
  unfold Ev.limitEvaluation
  split
  · exact (((e.softTest_frame n).trans (Ev.settle_frame _)).trans (Ev.hardTest_frame _ n)).trans (Ev.settle_frame _)
  · exact .refl

theorem Ev.limitRelease_frame : e.Keeps p e.limitRelease := by
  unfold Ev.limitRelease
  split
  · exact e.endEpisode_frame
  · exact .refl

theorem Ev.limitEdited_frame (a b : LimitCfg) : e.Keeps p (e.limitEdited a b) := by
  have h0 (x : Ev) (l : LimitRt) : x.Keeps p ({ x with limit := l } : Ev) := .ofEq
  have h1 (x : Ev) : x.Keeps p (x.limitEditCounts a b) := by
    unfold Ev.limitEditCounts
    dsimp only
    repeat' split
    all_goals exact h0 _ _
  have h2 (x : Ev) : x.Keeps p (x.limitEditTier b) := by
    unfold Ev.limitEditTier
    repeat' split
    · exact .refl
    · exact ((h0 x _).trans (Ev.removeHold_frame _ _ _)).trans (Ev.placeHold_frame _ _ _)
    · exact .refl
  have h3 (x : Ev) : x.Keeps p (x.limitEditMode b) := by
    have h4 (y : Ev) : y.Keeps p (if b.mode = .off then
        if y.limit.hardPresent then
          ({ y with limit.softCount := 0, limit.hardCount := 0, limit.hardPresent := false } : Ev).limitEnded
        else { y with limit.softCount := 0, limit.hardCount := 0, limit.hardPresent := false }
      else y) := by
      repeat' split
      · exact (h0 _ _).trans (Ev.limitEnded_frame _)
      · exact h0 _ _
      · exact .refl
    have h5 : x.Keeps p (match x.limit.state with
        | .limiting | .noted => x.endEpisode
        | .watch | .latched => x) := by
      split
      any_goals exact x.endEpisode_frame
      all_goals exact .refl
    exact h5.trans (h4 _)
  unfold Ev.limitEdited
  dsimp only
  repeat' split
  · exact ((h1 _).trans (h2 _)).trans (h3 _)
  · exact (h1 _).trans (h3 _)
  · exact (h1 _).trans (h2 _)
  · exact h1 _

theorem Ev.placeHeat_frame : e.Keeps p e.placeHeat := .trans .ofEq (Ev.placeHold_frame _ _ _)

theorem Ev.enterHot_frame (t : Int) : e.Keeps p (e.enterHot t) := .trans .ofEq (Ev.occurrenceAct_frame _ _ _)

theorem Ev.dropHeat_frame : e.Keeps p e.dropHeat := by
  unfold Ev.dropHeat
  split
  · exact .trans .ofEq (Ev.removeHold_frame _ _ _)
  · exact .refl

theorem Ev.leaveHot_frame (t : Int) : e.Keeps p (e.leaveHot t) := by
  unfold Ev.leaveHot
  split
  · exact .trans (.trans .ofEq (Ev.gated_frame _ _)) (Ev.conditionEnded_frame _ _)
  · exact .trans (.trans (.trans .ofEq (Ev.gated_frame _ _)) (Ev.conditionEnded_frame _ _)) (Ev.dropHeat_frame _)

theorem Ev.thermalMove_frame (t : Int) : e.Keeps p (e.thermalMove t) := by
  unfold Ev.thermalMove
  dsimp only
  repeat' split
  · exact e.placeHeat_frame.trans (Ev.enterHot_frame _ _)
  · exact e.placeHeat_frame.trans .ofEq
  · exact .refl
  · exact e.enterHot_frame _
  · exact .trans .ofEq (Ev.dropHeat_frame _)
  · exact .refl
  · exact e.leaveHot_frame _
  · exact .refl

theorem Ev.thermalCompletion_frame (t : Int) : e.Keeps p (e.thermalCompletion t) := by
  unfold Ev.thermalCompletion
  split
  · exact (e.thermalMove_frame t).trans (Ev.settle_frame _)
  · exact .refl

theorem Ev.heatTierEdited_frame (t : Fin 4) : e.Keeps p (e.heatTierEdited t) := by
  unfold Ev.heatTierEdited
  repeat' split
  · exact .refl
  · exact .trans (.trans .ofEq (Ev.removeHold_frame _ _ _)) (Ev.placeHold_frame _ _ _)
  · exact .refl

/-! ### Pins -/

theorem Ev.judgeWake_frame (w : WakeLine) : e.Keeps p (e.judgeWake w) := by
  unfold Ev.judgeWake
  split
  · exact .trans .ofEq (Ev.writeTarget_frame _ _)
  · exact .refl

theorem Ev.wakeExpiry_frame (w : WakeLine) : e.Keeps p (e.wakeExpiry w) := by
  unfold Ev.wakeExpiry
  split
  · exact ((e.setWakeQ_frame _ _).trans (Ev.judgeWake_frame _ _)).trans (Ev.settle_frame _)
  all_goals exact .refl

theorem Ev.wakeChange_keep (w : WakeLine) (b : Bool) : State.Keep p e.toState (e.wakeChange w b).toState := by
  have h1 : State.Keep p e.toState (({ e with pins.wake := e.pins.wake.set (wakeIdx w) b } : Ev).wakeLine w b).toState :=
    .trans .ofEq (Ev.wakeLine_frame _ _ _).keep
  have h2 (x : Ev) : x.Keeps p (x.keyHoldKey b) := by
    unfold Ev.keyHoldKey
    split
    · exact x.keyHoldLook_frame
    · exact .ofEq
  unfold Ev.wakeChange
  dsimp only
  split
  · exact h1.trans (h2 _).keep
  all_goals exact h1

theorem Ev.keyHoldFires_frame : e.Keeps p e.keyHoldFires := by
  have h1 (x : Ev) : x.Keeps p { (x.writeTarget .standby).reportTarget with retArmed := false } :=
    ((x.writeTarget_frame .standby).trans (Ev.reportTarget_frame _)).trans .ofEq
  have h2 (x : Ev) : x.Keeps p (if x.snapInHand then x else x.openShutdown .keyHold 0) := by
    split
    · exact .refl
    · exact x.openShutdown_frame _ _
  have h3 (x : Ev) : x.Keeps p x.keyHoldAct :=
    (((h1 x).trans (h2 _)).trans (Ev.snapBoth_frame _ _)).trans (Ev.takeSnaps_frame _)
  unfold Ev.keyHoldFires
  dsimp only
  split
  · exact .ofEq
  · exact .trans .ofEq (h3 _)

theorem Ev.lockQualified_frame : e.Keeps p e.lockQualified := by
  have h1 (x : Ev) : x.Keeps p x.lockStep := by
    unfold Ev.lockStep
    split
    · split
      · exact x.answer_frame _
      · exact .refl
    all_goals exact .refl
  exact .trans (.trans .ofEq (h1 _)) (Ev.superviseLock_frame _)

theorem Ev.endHandshake_frame (m : HsMemory) (o : HsOutcome) (c : Cause) : e.Keeps p (e.endHandshake m o c) := by
  unfold Ev.endHandshake
  split
  · exact .trans (.trans (.trans .ofEq (Ev.withdraw_frame _ _)) (Ev.slotTakes_frame _ _ _)) (Ev.answer_frame _ _)
  · exact .refl

/-! ### Conversions -/

theorem Ev.evaluationEvent_keep (v i : Nat) : State.Keep p e.toState (e.evaluationEvent v i).toState :=
  (State.Keep.ofEq (s₁ := (e.evaluation v i).toState)).trans
    (((Ev.rideEvaluation_frame _ _).trans (Ev.settle_frame _)).trans (Ev.limitEvaluation_frame _ _)).keep

theorem Ev.judgeConversion_frame (r : Rail) (mv : Nat) : e.Keeps p (e.judgeConversion r mv) := by
  have h1 := (e.rampConversion_frame (p := p) r mv).trans (Ev.settle_frame _)
  unfold Ev.judgeConversion
  dsimp only
  split
  · split
    · rename_i h
      exact (h1.trans (Ev.judgeWindow_frame _ _ _ fun _ hf => absurd (h.symm.trans hf) (by decide))).trans
        (Ev.settle_frame _)
    · exact h1
  · rename_i h
    exact (e.judgeWindow_frame _ _ fun _ hf => absurd (h.symm.trans hf) (by decide)).trans (Ev.settle_frame _)
  · rename_i h
    exact (e.drainConversion_frame _ _ fun _ hf => absurd (h.symm.trans hf) (by decide)).trans (Ev.settle_frame _)
  all_goals exact .refl

theorem Ev.slowCompletion_frame (i : Fin 15) (v : Int) : e.Keeps p (e.slowCompletion i v) := by
  have h1 (x : Ev) (r : Rail) (mv : Nat) : x.Keeps p (x.setRail r fun y => { y with lastMV := mv }) :=
    x.setRail_frame r _ fun _ hf => hf
  unfold Ev.slowCompletion
  split
  · exact e.thermalCompletion_frame _
  · unfold Ev.railConversion
    dsimp only
    split
    · exact (h1 _ _ _).trans (Ev.judgeConversion_frame _ _ _)
    · exact h1 _ _ _
  all_goals exact .refl

/-! ### Start-up and edits -/

theorem Ev.goLive_keep : State.Keep p e.toState e.goLive.toState := by
  have h1 : State.Keep p e.toState e.recomputeReserve.toState := .ofEq
  have h2 (x : Ev) : x.Keeps p (x.loadPlanLevels.setSys .standby) :=
    x.loadPlanLevels_frame.trans (Ev.setSys_frame _ _)
  have h3 (x : Ev) (t : Target) : x.Keeps p (x.writeTarget t).wakeWatchAll :=
    (x.writeTarget_frame t).trans (Ev.wakeWatchAll_frame _)
  have h4 (x : Ev) : x.Keeps p (allRails.foldl Ev.pgLook x) := .foldl (fun e r => e.pgLook_frame r) _ _
  have h5 (x : Ev) : x.Keeps p { x with arb := true } := .ofEq
  exact h1.trans ((((h2 _).trans (h3 _ _)).trans (h4 _)).trans (h5 _)).keep

theorem Ev.goodLoad_keep : State.Keep p e.toState e.goodLoad.toState := by
  have h1 : State.Keep p e.toState ({ e with
      tables := e.store.image.tables
      store.checking := false
      store.revision := e.store.image.tables.system.revision } : Ev).toState := .ofEq
  exact (h1.trans (Ev.goLive_keep _)).trans (Ev.settle_frame _).keep

theorem Ev.badLoad_keep : State.Keep p e.toState e.badLoad.toState := by
  have h1 : State.Keep p e.toState ({ e with tables := blankTables, store.checking := false } : Ev).toState := .ofEq
  exact h1.trans ((Ev.setSys_frame _ _).trans (Ev.wakeWatchAll_frame _)).keep

theorem Ev.storeEnds_keep (ok : Bool) : State.Keep p e.toState (e.storeEnds ok).toState := by
  have h1 : State.Keep p e.toState ({ e with
      store.writing := false
      store.lastResult := if ok then .ok else .failed
      store.image.valid := ok } : Ev).toState := .ofEq
  exact h1.trans (Ev.notice_frame _ _ _).keep

theorem Ev.storeVerified_keep : State.Keep p e.toState e.storeVerified.toState := by
  have h1 : State.Keep p e.toState
      (({ e with store.revision := e.store.image.tables.system.revision } : Ev).storeEnds true).toState :=
    .trans .ofEq (Ev.storeEnds_keep _ _)
  unfold Ev.storeVerified
  dsimp only
  split
  · exact (h1.trans (Ev.goLive_keep _)).trans (Ev.settle_frame _).keep
  · exact h1

theorem Ev.senseEdited_frame (r : Rail) (a b : RailCfg) : e.Keeps p (e.senseEdited r a b) := by
  have h1 (x : Ev) : x.Keeps p (x.setRail r fun y => { y with oow := 0 }) := x.setRail_frame r _ fun _ hf => hf
  unfold Ev.senseEdited
  dsimp only
  repeat' split
  · exact h1 _
  · exact .refl
  · exact (h1 _).trans (Ev.pgLook_frame _ _)
  · exact e.pgLook_frame _
  · exact (h1 _).trans (Ev.pgStop_frame _ _)
  · exact e.pgStop_frame _

theorem Ev.railTierEdited_frame (r : Rail) : e.Keeps p (e.railTierEdited r) := by
  have hs {st : RailState} (h : e.rails[r].state = st) (hne : st ≠ .faulted) : p r → e.rails[r].state ≠ .faulted :=
    fun _ hf => hne (h.symm.trans hf)
  unfold Ev.railTierEdited
  split
  · rename_i h
    split
    · exact e.drainStart_frame r _ (hs h (by decide))
    · exact .refl
  · rename_i h
    split
    · exact e.drainStart_frame r _ (hs h (by decide))
    · exact .refl
  · rename_i h
    split
    · exact .refl
    · exact e.rampStart_frame r (hs h (by decide))
  all_goals exact .refl

theorem Ev.policyEdited_frame (r : Rail) (a b : RailCfg) : e.Keeps p (e.policyEdited r a b) := by
  have h1 : e.Keeps p (if a.faultMode = .report ∧ b.faultMode ≠ .report then e.conditionEnded (srcRail r) else e) := by
    split
    · exact e.conditionEnded_frame _
    · exact .refl
  unfold Ev.policyEdited
  dsimp only
  split
  · exact h1
  · exact h1.trans (Ev.railTierEdited_frame _ _)

theorem Ev.editEffects_keep (g : Group) (a b : Tables) : State.Keep p e.toState (e.editEffects g a b).toState := by
  unfold Ev.editEffects
  split
  · exact (e.senseEdited_frame _ _ _).keep
  · exact .ofEq
  · exact (e.policyEdited_frame _ _ _).keep
  · split
    · exact .ofEq
    · exact .refl
  · split
    · exact .ofEq
    · exact .refl
  · exact .ofEq
  · exact (e.limitEdited_frame _ _).keep
  · split
    · exact .refl
    · exact (e.heatTierEdited_frame _).keep
  all_goals exact .refl

theorem Ev.applyEdit_keep (g : Group) (new : Tables) : State.Keep p e.toState (e.applyEdit g new).toState := by
  have h1 : State.Keep p e.toState ({ e with tables := new } : Ev).toState := .ofEq
  unfold Ev.applyEdit
  dsimp only
  split
  · exact h1
  · exact (h1.trans (Ev.editEffects_keep _ _ _ _)).trans (Ev.settle_frame _).keep

/-! ### Requests -/

theorem keysDistinct_drop {q : List Notice} (n : Nat) (h : keysDistinct q) : keysDistinct (q.drop n) :=
  h.sublist ((List.drop_sublist n q).map _)

theorem Ev.serveGo_frame (b : List Byte) : e.Keeps p (e.serveGo b).ev := by
  have h1 (t : Target) : e.Keeps p (e.acceptGo t).ev :=
    .trans (.trans .ofEq (Ev.writeTarget_frame _ _)) (Ev.settle_frame _)
  unfold Ev.serveGo
  repeat' split
  any_goals exact .refl
  all_goals exact h1 _

theorem Ev.serveTakeNotices_keep (b : List Byte) : State.Keep p e.toState (e.serveTakeNotices b).ev.toState := by
  unfold Ev.serveTakeNotices
  split
  · exact .refl
  · exact { State.Keep.refl (s := e.toState) (p := p) with keys := fun h => keysDistinct_drop _ h }

theorem Ev.serveAckOff_frame (b : List Byte) : e.Keeps p (e.serveAckOff b).ev := by
  unfold Ev.serveAckOff
  repeat' split
  any_goals exact .refl
  exact (e.endHandshake_frame _ _ _).trans (Ev.settle_frame _)

theorem Ev.serveReadMeasure_keep (b : List Byte) : State.Keep p e.toState (e.serveReadMeasure b).ev.toState := by
  unfold Ev.serveReadMeasure
  split
  · exact .refl
  · dsimp only
    split
    · exact .ofEq
    · exact .refl

theorem Ev.serveReadBudget_keep (b : List Byte) : State.Keep p e.toState (e.serveReadBudget b).ev.toState := by
  unfold Ev.serveReadBudget
  split
  · exact .refl
  · dsimp only
    split
    · exact .ofEq
    · exact .refl

theorem FaultRec.cleared_occurrences (f : FaultRec) : f.cleared.occurrences = f.occurrences := rfl

theorem FaultRec.released_occurrences (f : FaultRec) : f.released.occurrences = f.occurrences := by
  unfold FaultRec.released
  split <;> rfl

theorem Ev.clearRailOf_frame (i : Fin 15) : e.Keeps (fun r => srcRail r ≠ i) (e.clearRailOf i) := by
  unfold Ev.clearRailOf
  split
  · rename_i h
    have h1 := e.railClear_frame ⟨i.val, h⟩
    exact { h1 with faulted := fun r hr => h1.faulted r fun hi => hr (by subst hi; rfl) }
  · exact .refl

theorem Ev.clearOne_frame (i : Fin 15) : e.Keeps (fun r => srcRail r ≠ i) (e.clearOne i) := by
  have h1 (x : Ev) (f : FaultRec → FaultRec) (hf : ∀ y, (f y).occurrences = y.occurrences) :
      x.Keeps (fun r => srcRail r ≠ i) (((x.setFault i f).faultNotice i).clearRailOf i) :=
    ((x.setFault_frame i f (hf _).ge fun h => (hf _).trans_le h).trans (Ev.faultNotice_frame _ _)).trans
      (Ev.clearRailOf_frame _ _)
  have h2 : e.Keeps (fun r => srcRail r ≠ i) (e.releaseLimitOf i) := by
    unfold Ev.releaseLimitOf
    split
    · exact e.limitRelease_frame
    · exact .refl
  unfold Ev.clearOne
  split
  · exact e.clearRailOf_frame _
  · exact h1 _ _ FaultRec.cleared_occurrences
  · exact h2.trans (h1 _ _ FaultRec.released_occurrences)
  · exact .refl

theorem Ev.lockoutExit_frame : e.Keeps p e.lockoutExit := by
  have h1 : e.Keeps p ((e.setSys .standby).setPlanLevel .faultN .high) :=
    (e.setSys_frame _).trans (Ev.setPlanLevel_frame _ _ _)
  unfold Ev.lockoutExit
  split
  · exact .trans h1 .ofEq
  · exact .refl

theorem Ev.serveClearFault_frame (b : List Byte) :
    e.Keeps (fun r => clearArg b ≠ some (.one (srcRail r)) ∧ clearArg b ≠ some .all) (e.serveClearFault b).ev := by
  have h1 (q : Rail → Prop) (x : Ev) : x.Keeps q x.lockoutExit.settle := x.lockoutExit_frame.trans (Ev.settle_frame _)
  have h2 (i : Fin 15) : e.Keeps (fun r => srcRail r ≠ i) (e.clearOne i).lockoutExit.settle :=
    (e.clearOne_frame i).trans (h1 _ _)
  have h3 (x : Ev) (i : Fin 15) : x.Keeps (fun _ => False) (x.clearOne i) :=
    { x.clearOne_frame i with faulted := fun _ h => h.elim }
  have h4 : e.Keeps (fun _ => False) (allSources.foldl Ev.clearOne e) := .foldl h3 _ _
  have h5 := h4.trans (h1 _ _)
  unfold Ev.serveClearFault
  split
  · exact .refl
  · rename_i i hi
    split
    · exact .refl
    · exact { h2 i with faulted := fun r hr => (h2 i).faulted r fun h => hr.1 (h ▸ hi) }
  · rename_i hi
    dsimp only
    exact { h5 with faulted := fun _ hr => absurd hi hr.2 }

theorem Ev.serveSetHold_frame (b : List Byte) : e.Keeps p (e.serveSetHold b).ev := by
  unfold Ev.serveSetHold
  split
  · exact .refl
  · dsimp only
    split
    · exact (e.placeHold_frame _ _).trans (Ev.settle_frame _)
    · exact (e.removeHold_frame _ _).trans (Ev.settle_frame _)

theorem Ev.serveRunService_frame (b : List Byte) : e.Keeps p (e.serveRunService b).ev := by
  have h1 (x : Ev) (q : PendingSet) : x.Keeps p ({ x with reqs := q, arb := true } : Ev).settle :=
    .trans .ofEq (Ev.settle_frame _)
  unfold Ev.serveRunService
  repeat' split
  any_goals exact .refl
  any_goals exact h1 _ _
  all_goals exact e.setPlan_frame _ fun x => { x with merged := true }

theorem Ev.serveEditConfig_keep (b : List Byte) : State.Keep p e.toState (e.serveEditConfig b).ev.toState := by
  unfold Ev.serveEditConfig
  repeat' split
  any_goals exact .refl
  exact e.applyEdit_keep _ _

/-- Whatever serves a request keeps the promises; only CLEAR_FAULT (KIND 0x0A) clears a rail. -/
theorem Ev.dispatch_keep (f : Frame) : State.Keep (fun r => ¬ f.clearsRail r) e.toState (e.dispatch f).ev.toState := by
  have h10 (h : f.kind.toNat = 10) : f.kind = 0x0A := BitVec.eq_of_toNat_eq h
  unfold Ev.dispatch
  split
  · unfold Ev.serveIdentify; split <;> exact .refl
  · exact (e.serveGo_frame _).keep
  · exact e.serveTakeNotices_keep _
  · exact (e.serveAckOff_frame _).keep
  · unfold Ev.serveReadState; split <;> exact .refl
  · unfold Ev.serveReadRail; split <;> exact .refl
  · exact e.serveReadMeasure_keep _
  · exact e.serveReadBudget_keep _
  · unfold Ev.serveReadFault; split <;> exact .refl
  · rename_i h
    have h1 := (e.serveClearFault_frame f.body).keep
    exact { h1 with
      faulted := fun r hr => h1.faulted r ⟨fun hb => hr ⟨h10 h, .inl hb⟩, fun hb => hr ⟨h10 h, .inr hb⟩⟩ }
  · unfold Ev.serveReadShutdown; split <;> exact .refl
  · exact (e.serveSetHold_frame _).keep
  · exact (e.serveRunService_frame _).keep
  · unfold Ev.serveResetBoard
    repeat' split
    any_goals exact .refl
    exact .ofEq
  · unfold Ev.serveReadConfig; split <;> exact .refl
  · exact e.serveEditConfig_keep _
  · unfold Ev.serveStore
    split
    · exact .ofEq
    · exact .refl
  · unfold Ev.serveReadLink
    split
    · exact .ofEq
    · exact .refl
  · exact .refl

theorem Ev.served_keep (f : Frame) : State.Keep (fun r => ¬ f.clearsRail r) e.toState (e.served f).ev.toState := by
  unfold Ev.served
  split
  · exact .refl
  · exact e.dispatch_keep f

theorem Ev.take_keep (f : Frame) : State.KeepMost (fun r => ¬ f.clearsRail r) e.toState (e.take f).toState :=
  (e.served_keep f).toKeepMost.trans .ofEq

/-- The taking of a request leaves the waiting buffer alone and puts the request in service. -/
theorem Ev.take_link (f : Frame) :
    (e.take f).link.waiting = e.link.waiting ∧ (e.take f).link.service = some f ∧ (e.take f).link.tx ≠ [] :=
  ⟨(e.served_keep f).waiting, rfl, List.cons_ne_nil _ _⟩

end

/-- A promise about fewer rails. -/
theorem State.KeepMost.mono {p q : Rail → Prop} {s s' : State} (h : State.KeepMost p s s') (hq : ∀ r, q r → p r) :
    State.KeepMost q s s' :=
  { h with faulted := fun r hr => h.faulted r (hq r hr) }

/-- The buffers and the transmitter stay sound (R162). -/
structure Link.Sound (l : Link) : Prop where
  waits : l.waiting ≠ none → l.service ≠ none
  sends : l.tx ≠ [] ↔ l.service ≠ none

section
variable (e : Ev)

theorem Ev.take_sound (f : Frame) : (e.take f).link.Sound where
  waits _ := by simp [(e.take_link f).2.1]
  sends := by simp [e.take_link f]

theorem Ev.frameArrives_keep (f : Frame) :
    State.KeepMost (fun r => e.link.service = none → ¬ f.clearsRail r) e.toState (e.frameArrives f).toState := by
  unfold Ev.frameArrives
  split
  · rename_i h
    exact (e.take_keep f).mono fun r hr => hr (by simpa using h)
  · split
    · exact .ofEq
    · exact .ofEq

theorem Ev.frameArrives_sound (f : Frame) (h : e.link.Sound) : (e.frameArrives f).link.Sound := by
  unfold Ev.frameArrives
  split
  · exact e.take_sound f
  · rename_i hs
    have hs' : e.link.service ≠ none := fun h => hs (by simp [h])
    split
    · exact ⟨fun _ => hs', h.sends⟩
    · exact ⟨h.waits, h.sends⟩

theorem Ev.framed_keep (l : List Byte) :
    State.KeepMost (fun r => lenByte l ≤ 56 → lenByte l + 4 ≤ l.length → crc8 l.dropLast = l.getLastD 0 →
      e.link.service = none → ¬ (Frame.ofBytes l).clearsRail r) e.toState (e.framed l).toState := by
  unfold Ev.framed
  split
  · exact .ofEq
  · rename_i h56
    split
    · exact .ofEq
    · rename_i hlen
      split
      · rename_i hcrc
        exact .trans (s₁ := ({ e with link.rx := .hunting } : Ev).toState) .ofEq
          ((Ev.frameArrives_keep { e with link.rx := .hunting } (Frame.ofBytes l)).mono fun r hr =>
            hr (by omega) (by omega) hcrc)
      · exact .ofEq

theorem Ev.framed_sound (l : List Byte) (h : e.link.Sound) : (e.framed l).link.Sound := by
  unfold Ev.framed
  split
  · exact ⟨h.waits, h.sends⟩
  · split
    · exact ⟨h.waits, h.sends⟩
    · split
      · exact Ev.frameArrives_sound _ _ ⟨h.waits, h.sends⟩
      · exact ⟨h.waits, h.sends⟩

theorem Ev.character_keep (g : Nat) (b : Byte) :
    State.KeepMost (fun r => ∀ got, e.link.rx = .inFrame got → frameCompletes got g b → e.link.service = none →
      ¬ (Frame.ofBytes (got ++ [b])).clearsRail r) e.toState (e.character g b).toState := by
  unfold Ev.character
  split
  · exact .ofEq
  · rename_i got hg
    split
    · exact .ofEq
    · rename_i hgap
      exact (e.framed_keep _).mono fun r hr h1 h2 h3 =>
        hr got hg ⟨by simpa [gapLimitUs] using hgap, h1, h2, by simpa using h3⟩

theorem Ev.character_sound (g : Nat) (b : Byte) (h : e.link.Sound) : (e.character g b).link.Sound := by
  unfold Ev.character
  split
  · exact ⟨h.waits, h.sends⟩
  · split
    · exact ⟨h.waits, h.sends⟩
    · exact e.framed_sound _ h

theorem Ev.replySent_keep :
    State.KeepMost (fun r => ∀ f, e.link.waiting = some f → ¬ f.clearsRail r) e.toState e.replySent.toState := by
  have h0 (p : Rail → Prop) := Ev.pulseReplySent_frame (p := p) { e with link.service := none, link.tx := [] }
  have h1 (p : Rail → Prop) : State.KeepMost p e.toState
      ({ e with link.service := none, link.tx := [] } : Ev).pulseReplySent.toState :=
    .trans .ofEq (h0 p).keep.toKeepMost
  unfold Ev.replySent
  dsimp only
  split
  · rename_i f hf
    rw [(h0 fun _ => True).link] at hf
    have h2 (x : Ev) : State.KeepMost (fun r => ∀ f, e.link.waiting = some f → ¬ f.clearsRail r) x.toState
        (({ x with link.waiting := none } : Ev).take f).toState :=
      State.KeepMost.trans (s₁ := ({ x with link.waiting := none } : Ev).toState) .ofEq
        ((Ev.take_keep _ f).mono fun r hr => hr f hf)
    exact (h1 _).trans (h2 _)
  · exact h1 _

theorem Ev.replySent_sound : e.replySent.link.Sound := by
  have h0 := Ev.pulseReplySent_frame (p := fun _ => True) { e with link.service := none, link.tx := [] }
  unfold Ev.replySent
  dsimp only
  split
  · exact Ev.take_sound _ _
  · rename_i h
    have hs := congrArg Link.service h0.link
    have ht := congrArg Link.tx h0.link
    exact ⟨fun hw => absurd h hw, by simp [hs, ht]⟩

end

/-- The arrival of a request's frame, as the request rows have it. -/
theorem request_keep (k t : Byte) (b : List Byte) (s : State) :
    ∃ s', request k t b s = .next s'
      ∧ State.KeepMost (fun r => s.pins.inReset = false → s.link.service = none → ¬ (Frame.mk k t b).clearsRail r) s s'
      ∧ (s.link.Sound → s'.link.Sound) := by
  by_cases h : s.pins.inReset = true
  · refine ⟨_, rfl, ?_, ?_⟩
    · exact .trans (by simp only [Ev.start, h]; exact .refl) (Ev.finish_keep _).toKeepMost
    · simp only [Ev.finish, Ev.start, h]
      exact id
  · refine ⟨_, rfl, ?_, ?_⟩
    · exact .trans
        (by
          simp only [Ev.start, h]
          exact ((Ev.start s).frameArrives_keep ⟨k, t, b⟩).mono fun r hr => hr trivial)
        (Ev.finish_keep _).toKeepMost
    · simp only [Ev.finish, Ev.start, h]
      exact (Ev.start s).frameArrives_sound ⟨k, t, b⟩

end Sys2Proof.Machine
end

