-- ==== Sys2Proof/Laws/Settle.lean ====
section
/-! SUPPORT. What serving an event's marks does when nothing is due: the engine at rest or busy with a transition or snap
plan. -/

namespace Sys2Proof.Machine

-- One after the other: in parallel these proofs wait for one another's equation lemmas, each in a thread of its own.
set_option Elab.async false


/-- With no answer marked no step is taken. -/
theorem Ev.runSteps_quiet (n : Nat) (e : Ev) (h : e.ans = none) : Ev.runSteps n e = e := by
  cases n <;> simp [Ev.runSteps, h]

/-- An event with no marks is settled as it stands. -/
theorem Ev.settle_quiet (e : Ev) (h1 : e.ans = none) (h2 : e.tgtChanged = false) (h3 : e.arb = false) (h4 : e.act = none) : e.settle = e := by
  simp [Ev.settle, Ev.serve, Ev.runSteps_quiet _ e h1, h2, h3, Ev.applyAct, h4]

/-- A busy engine's arbiter does nothing (R61). -/
theorem Ev.runArbiter_busy (n : Nat) (e : Ev) (h : e.run ≠ none) : Ev.runArbiter n e = e := by
  cases n with
  | zero => rfl
  | succ m =>
    have : e.engineIdle = false := by cases hr : e.run <;> simp_all [State.engineIdle]
    simp [Ev.runArbiter, this]

/-- An engine at rest finds no candidate and withdraws nothing (R61, R62). -/
theorem Ev.choose_atRest (e : Ev) (h : e.toState.atRest) : e.choose = (e, none) := by
  obtain ⟨h1, h2, h3⟩ := h
  unfold Ev.choose
  split
  · rfl
  · rfl
  all_goals simp [State.isPending, PendingSet.get, h2, PendingSet.none, h3, Ev.withdrawService]

/-- The arbiter leaves an engine at rest as it is. -/
theorem Ev.runArbiter_atRest (n : Nat) (e : Ev) (h : e.toState.atRest) : Ev.runArbiter n e = e := by
  cases n with
  | zero => rfl
  | succ m => simp only [Ev.runArbiter, Ev.choose_atRest e h]; split <;> rfl

/-- A change of the target disturbs no transition or snap plan and no idle engine (R3). -/
theorem Ev.reportTarget_unmoved (e : Ev) (h : (∃ run, e.run = some run ∧ run.plan.isService = false) ∨ e.run = none) :
    e.reportTarget = { e with tgtChanged := false } := by
  unfold Ev.reportTarget
  split
  · obtain ⟨run, h1, h2⟩ | h := h
    · simp [Ev.abortService, h1, h2]
    · simp [Ev.abortService, h]
  · rename_i h'; simp only [Bool.not_eq_true] at h'; rw [← h']

/-- With no plan ended, a run of the arbiter over a busy engine or one at rest only clears the marks. -/
theorem Ev.arbitrate_still (e : Ev) (hp : e.planEnded = false) (h : e.run ≠ none ∨ e.toState.atRest) :
    e.arbitrate = { e with arb := false, tgtChanged := false } := by
  have : Ev.runArbiter planFuel e = e := by
    obtain h | h := h
    · exact Ev.runArbiter_busy _ _ h
    · exact Ev.runArbiter_atRest _ _ h
  simp [Ev.arbitrate, this, hp]

/-- A change of the target or a trigger of the arbiter sets nothing off while a transition or snap plan runs or the
engine is at rest. -/
theorem Ev.settle_still (e : Ev) (h1 : e.ans = none) (h4 : e.act = none) (hp : e.planEnded = false)
    (h : (∃ run, e.run = some run ∧ run.plan.isService = false) ∨ e.toState.atRest) :
    e.settle = { e with arb := false, tgtChanged := false } := by
  have hr : (∃ run, e.run = some run ∧ run.plan.isService = false) ∨ e.run = none := h.imp id fun h => h.1
  have hn : e.run ≠ none ∨ e.toState.atRest := h.imp (fun ⟨r, h, _⟩ => by simp [h]) id
  have hsrv : e.serve = { e with arb := false, tgtChanged := false } := by
    simp only [Ev.serve, stepFuel, Ev.runSteps_quiet _ e h1]
    cases ht : e.tgtChanged
    · cases ha : e.arb
      · simp only [Bool.false_eq_true, if_false, ha]; clear * - ht ha; cases e; simp_all
      · simp only [Bool.false_eq_true, if_false, if_true, ha]
        rw [Ev.arbitrate_still e hp hn]
    · simp only [if_true, Ev.reportTarget_unmoved e hr]
      rw [Ev.arbitrate_still _ (by exact hp) (by exact hn)]
  simp [Ev.settle, hsrv, Ev.applyAct, h4]

/-- Taking a queued notice's content afresh is queueing it with that content. -/
theorem retake_enqueue (q : List Notice) (k : NoticeKey) (b b' : NoticeBody) : retake k b (enqueue q k b') = enqueue q k b := by
  unfold enqueue retake
  split
  · simp only [List.map_map]
    apply List.map_congr_left
    intro a _
    simp only [Function.comp]
    split <;> simp_all
  · rename_i h
    simp only [List.any_eq_true, decide_eq_true_eq, not_exists, not_and] at h
    rw [List.map_append, List.map_congr_left (g := id) (fun a ha => by simp [h a ha])]
    simp

/-- A request that finds the link ready is taken at once (R162). -/
theorem request_ready (k t : Byte) (b : List Byte) (s : State) (h : s.ready) :
    request k t b s = .next ((Ev.start s).take ⟨k, t, b⟩).finish := by
  simp [request, runEvent, Ev.start, h.1, Ev.frameArrives, h.2]

/-! ### A step passed -/

@[simp] theorem State.passed_run (t : State) (run : Run) (ms : Nat) (c : Cause) :
    (t.passed run ms c).run = some (t.runWaiting run ms) := rfl
@[simp] theorem State.passed_rails (t : State) (run : Run) (ms : Nat) (c : Cause) :
    (t.passed run ms c).rails = t.rails := rfl
@[simp] theorem State.passed_none (t : State) (run : Run) (ms : Nat) :
    t.passed run ms .none = { t with run := some (t.runWaiting run ms) } := rfl

/-- A step in flight that waits for `w` is what the engine waits for. -/
theorem State.waitsOn.waitOf {s : State} {w : Wait} {run : Run} {ms : Nat} (h : s.waitsOn w run ms) : s.waitOf = w := by
  simp [State.waitOf, h.1, h.2.1]

end Sys2Proof.Machine
end

