-- ==== Sys2Proof/Laws/Step.lean ====
section
/-! SUPPORT. What every command but a part reset keeps, said once over all of them (exec_keepMost). -/

namespace Sys2Proof.Machine

-- One after the other: in parallel these proofs wait for one another's equation lemmas, each in a thread of its own.
set_option Elab.async false

/-- The rails that the request a command takes does not clear (R23). -/
def State.unclearedBy (s : State) (c : Instr) (r : Rail) : Prop := ∀ f, s.takes c f → ¬ f.clearsRail r

/-- A command that can bring a request to be taken: a request row, a character, the end of a reply. -/
def linkCommand (c : Instr) : Prop :=
  c.frame?.isSome ∨ (∃ g ch, c = .receiveCharacter g ch) ∨ c = .replyLastCharacterSent

/-- What a command that takes no request keeps: beside what `exec_keepMost` says, the buffers, the transmitter and every
FAULTED rail. -/
theorem exec_keep (c : Instr) (hc : ¬ c.isReset) (hl : ¬ linkCommand c) (s : State) :
    ∃ t, exec c s = .next t ∧ State.Keep (fun _ => True) s t := by
  have hk {f : Ev → Ev} (h : ∀ e : Ev, State.Keep (fun _ => True) e.toState (f e).toState) :
      ∃ t, runEvent f s = .next t ∧ State.Keep (fun _ => True) s t := runEvent_keep h s
  cases c
  case powerOnReset => exact absurd (.inl rfl) hc
  case pinReset => exact absurd (.inr rfl) hc
  case imageCheckComplete =>
    simp only [exec, execImageCheckComplete]
    refine hk fun e => ?_
    split
    · split
      · exact e.goodLoad_keep
      · exact e.badLoad_keep
    · exact .refl
  case storeVerified =>
    simp only [exec, execStoreVerified]
    refine hk fun e => ?_
    split
    · exact e.storeVerified_keep
    · exact .refl
  case storeNotVerified =>
    simp only [exec, execStoreNotVerified]
    refine hk fun e => ?_
    split
    · exact e.storeEnds_keep _
    · exact .refl
  case acOkChange a =>
    simp only [exec, execAcOkChange]
    refine hk fun e => ?_
    split
    · exact .refl
    · exact .trans .ofEq ((e.acChange_frame a).trans (Ev.settle_frame _)).keep
  case wakeLineChange w a =>
    simp only [exec, execWakeLineChange]
    refine hk fun e => ?_
    split
    · exact .refl
    · exact e.wakeChange_keep w a
  case wakeQualifyExpiry w =>
    simp only [exec, execWakeQualifyExpiry]
    refine hk fun e => ?_
    exact (e.wakeExpiry_frame w).keep
  case keyHoldExpiry =>
    simp only [exec, execKeyHoldExpiry]
    refine hk fun e => ?_
    split
    · exact (e.keyHoldFires_frame.trans (Ev.settle_frame _)).keep
    all_goals exact .refl
  case pgPinChange r h =>
    simp only [exec, execPgPinChange]
    refine hk fun e => ?_
    split
    · exact .refl
    · exact .trans .ofEq (Ev.pgLook_frame _ _).keep
  case pgDeglitchExpiry r =>
    simp only [exec, execPgDeglitchExpiry]
    refine hk fun e => ?_
    split
    · exact ((e.pgQualified_frame _ _).trans (Ev.settle_frame _)).keep
    · exact .refl
  case lockPinChange h =>
    simp only [exec, execLockPinChange]
    refine hk fun e => ?_
    split
    · exact .refl
    · exact .trans .ofEq (Ev.lockLook_frame _).keep
  case lockDeglitchExpiry =>
    simp only [exec, execLockDeglitchExpiry]
    refine hk fun e => ?_
    split
    · exact (e.lockQualified_frame.trans (Ev.settle_frame _)).keep
    · exact .refl
  case periodTimerExpiry =>
    simp only [exec, execPeriodTimerExpiry]
    refine hk fun e => ?_
    split <;> exact .ofEq
  case busVoltageConversion v =>
    simp only [exec, execBusVoltageConversion]
    refine hk fun e => ?_
    split <;> exact .ofEq
  case busCurrentConversion v =>
    simp only [exec, execBusCurrentConversion]
    refine hk fun e => ?_
    split
    · split
      · exact .trans .ofEq (Ev.evaluationEvent_keep _ _ _)
      · exact .ofEq
    · exact .refl
  case slowConversion v =>
    simp only [exec, execSlowConversion]
    refine hk fun e => ?_
    split
    · exact .trans .ofEq (Ev.slowCompletion_frame _ _ _).keep
    · exact .refl
  case rampDeadlineExpiry r =>
    simp only [exec, execRampDeadlineExpiry]
    refine hk fun e => ?_
    split
    · rename_i h
      exact ((e.rampExpiry_frame r fun _ hf => absurd (h.symm.trans hf) (by decide)).trans (Ev.settle_frame _)).keep
    · exact .refl
  case drainTimeout r =>
    simp only [exec, execDrainTimeout]
    refine hk fun e => ?_
    split
    · rename_i h
      exact ((e.drainExpiry_frame r fun _ hf => absurd (h.symm.trans hf) (by decide)).trans (Ev.settle_frame _)).keep
    · exact .refl
  case retryWaitExpiry r =>
    simp only [exec, execRetryWaitExpiry]
    refine hk fun e => ?_
    split
    · rename_i h
      exact ((e.retryExpiry_frame r fun _ hf => absurd (h.symm.trans hf) (by decide)).trans (Ev.settle_frame _)).keep
    · exact .refl
  case waitStepExpiry =>
    simp only [exec, execWaitStepExpiry]
    refine hk fun e => ?_
    split
    · exact ((e.answer_frame _).trans (Ev.settle_frame _)).keep
    all_goals exact .refl
  case awaitLockDeadlineExpiry =>
    simp only [exec, execAwaitLockDeadlineExpiry]
    refine hk fun e => ?_
    split
    · exact ((e.answer_frame _).trans (Ev.settle_frame _)).keep
    all_goals exact .refl
  case handshakeDeadlineExpiry =>
    simp only [exec, execHandshakeDeadlineExpiry]
    refine hk fun e => ?_
    split
    · exact ((e.endHandshake_frame _ _ _).trans (Ev.settle_frame _)).keep
    · exact .refl
  case resetPulseExpiry =>
    simp only [exec, execResetPulseExpiry]
    refine hk fun e => ?_
    split <;> exact .ofEq
  case graceExpiry =>
    simp only [exec, execGraceExpiry]
    refine hk fun e => ?_
    split
    · exact (Ev.Keeps.trans (.trans .ofEq (Ev.writeTarget_frame _ _)) (Ev.settle_frame _)).keep
    all_goals exact .refl
  case qualifyExpiry =>
    simp only [exec, execQualifyExpiry]
    refine hk fun e => ?_
    split
    · exact (e.startRide_frame.trans (Ev.settle_frame _)).keep
    · exact .refl
  case rideLimitExpiry =>
    simp only [exec, execRideLimitExpiry]
    refine hk fun e => ?_
    split
    · exact ((e.commit_frame _).trans (Ev.settle_frame _)).keep
    · exact .refl
  case settleExpiry =>
    simp only [exec, execSettleExpiry]
    refine hk fun e => ?_
    split
    · exact (e.enterRestoring_frame.trans (Ev.settle_frame _)).keep
    · exact .refl
  case restoreIntervalExpiry =>
    simp only [exec, execRestoreIntervalExpiry]
    refine hk fun e => ?_
    split
    · exact (e.restoreRelease_frame.trans (Ev.settle_frame _)).keep
    · exact .refl
  case restExpiry =>
    simp only [exec, execRestExpiry]
    refine hk fun e => ?_
    split
    · exact (e.leaveRest_frame.trans (Ev.settle_frame _)).keep
    · exact .refl
  case endOfPinReset =>
    simp only [exec, execEndOfPinReset]
    split
    · exact ⟨_, rfl, .ofEq⟩
    · exact ⟨_, rfl, .refl⟩
  case receiveCharacter g ch => exact absurd (.inr (.inl ⟨_, _, rfl⟩)) hl
  case replyLastCharacterSent => exact absurd (.inr (.inr rfl)) hl
  all_goals exact absurd (.inl rfl) hl

/-- What any command but a part reset leaves as it was: it answers a next state that keeps the queue, the clock, one
notice a key, the fault counts, and every FAULTED rail that the request taken does not clear; the link stays sound. -/
theorem exec_keepMost (c : Instr) (hc : ¬ c.isReset) (s : State) :
    ∃ t, exec c s = .next t ∧ State.KeepMost (s.unclearedBy c) s t ∧ (s.link.Sound → t.link.Sound) := by
  by_cases hl : linkCommand c
  swap
  · obtain ⟨t, h1, h2⟩ := exec_keep c hc hl s
    refine ⟨t, h1, h2.toKeepMost.mono fun _ _ => trivial, fun hs => ⟨?_, ?_⟩⟩
    · rw [h2.waiting, h2.service]; exact hs.waits
    · rw [h2.tx, h2.service]; exact hs.sends
  have hreq (k t : Byte) (b : List Byte) (he : exec c s = request k t b s)
      (hf : s.pins.inReset = false → s.link.service = none → s.takes c ⟨k, t, b⟩) :
      ∃ t, exec c s = .next t ∧ State.KeepMost (s.unclearedBy c) s t ∧ (s.link.Sound → t.link.Sound) := by
    rw [he]
    obtain ⟨u, h1, h2, h3⟩ := request_keep k t b s
    exact ⟨u, h1, h2.mono fun r hr hp hs => hr _ (hf hp hs), h3⟩
  cases c
  case receiveCharacter g ch =>
    by_cases h : s.pins.inReset = true
    · refine ⟨_, rfl, .trans (by simp only [Ev.start, h]; exact .refl) (Ev.finish_keep _).toKeepMost, ?_⟩
      simp only [Ev.finish, Ev.start, h]; exact id
    · have h1 : State.KeepMost (s.unclearedBy (.receiveCharacter g ch)) s ((Ev.start s).character g ch).toState := by
        refine ((Ev.start s).character_keep g ch).mono ?_
        exact fun r hr got hg hc hs => hr _ ⟨by simpa using h, hs, got, hg, hc, rfl⟩
      refine ⟨_, rfl, .trans (by simp only [Ev.start, h]; exact h1) (Ev.finish_keep _).toKeepMost, ?_⟩
      simp only [Ev.finish, Ev.start, h]; exact (Ev.start s).character_sound g ch
  case replyLastCharacterSent =>
    by_cases h : s.link.service.isSome = true
    · refine ⟨_, rfl, .trans ?_ (Ev.finish_keep _).toKeepMost, ?_⟩
      · simp only [Ev.start, h]
        exact (Ev.start s).replySent_keep.mono fun r hr f hf => hr f ⟨Option.isSome_iff_ne_none.mp h, hf⟩
      simp only [Ev.finish, Ev.start, h]; exact fun _ => (Ev.start s).replySent_sound
    · refine ⟨_, rfl, .trans (by simp only [Ev.start, h]; exact .refl) (Ev.finish_keep _).toKeepMost, ?_⟩
      simp only [Ev.finish, Ev.start, h]; exact id
  case identify t b => exact hreq _ _ _ rfl fun hp hs => ⟨hp, hs, rfl⟩
  case go t b => exact hreq _ _ _ rfl fun hp hs => ⟨hp, hs, rfl⟩
  case takeNotices t b => exact hreq _ _ _ rfl fun hp hs => ⟨hp, hs, rfl⟩
  case ackOff t b => exact hreq _ _ _ rfl fun hp hs => ⟨hp, hs, rfl⟩
  case readState t b => exact hreq _ _ _ rfl fun hp hs => ⟨hp, hs, rfl⟩
  case readRail t b => exact hreq _ _ _ rfl fun hp hs => ⟨hp, hs, rfl⟩
  case readMeasure t b => exact hreq _ _ _ rfl fun hp hs => ⟨hp, hs, rfl⟩
  case readBudget t b => exact hreq _ _ _ rfl fun hp hs => ⟨hp, hs, rfl⟩
  case readFault t b => exact hreq _ _ _ rfl fun hp hs => ⟨hp, hs, rfl⟩
  case clearFault t b => exact hreq _ _ _ rfl fun hp hs => ⟨hp, hs, rfl⟩
  case readShutdown t b => exact hreq _ _ _ rfl fun hp hs => ⟨hp, hs, rfl⟩
  case setHold t b => exact hreq _ _ _ rfl fun hp hs => ⟨hp, hs, rfl⟩
  case runService t b => exact hreq _ _ _ rfl fun hp hs => ⟨hp, hs, rfl⟩
  case resetBoard t b => exact hreq _ _ _ rfl fun hp hs => ⟨hp, hs, rfl⟩
  case readConfig t b => exact hreq _ _ _ rfl fun hp hs => ⟨hp, hs, rfl⟩
  case editConfig t b => exact hreq _ _ _ rfl fun hp hs => ⟨hp, hs, rfl⟩
  case store t b => exact hreq _ _ _ rfl fun hp hs => ⟨hp, hs, rfl⟩
  case readLink t b => exact hreq _ _ _ rfl fun hp hs => ⟨hp, hs, rfl⟩
  all_goals exact absurd hl (by simp [linkCommand, Instr.frame?])

/-- An outcome names one next state. -/
theorem next_inj {s t : State} (h : (Host.Outcome.next s : Host.Outcome State Fault Refusal) = .next t) : s = t := by
  injection h

end Sys2Proof.Machine
end

