-- ==== Sys2Proof/WellFormed.lean ====
section
/-! DEFINITION. Which commands the spec admits: the operand types bound rails (R21), lines (R12) and codes (R88);
what is left to check is the length of a request's body. -/

namespace Sys2Proof

/-- A request body has 0..56 bytes (section 10.1, R160). -/
def Instr.wellFormed (i : Instr) : Bool :=
  match i.body? with
  | some b => decide (b.length ≤ 56)
  | none => true

end Sys2Proof
end

