-- ==== Sys2Proof/Tests/Slice0.lean ====
section
/-! SUPPORT. Tests: the well-formedness smoke, values that the spec works out, and for each statement with hypotheses
a theorem that some state and operands meet them, clause by clause. -/

namespace Sys2Proof.Tests

open Sys2Proof.Machine

-- Each kernel evaluation below waits for the declarations before it: taken one after the other they need one thread.
set_option Elab.async false
-- A witness is a long conjunction, decided as a whole.
set_option synthInstance.maxSize 1000

/-! ### Small states -/

/-- A plan of two WAIT steps of 10 ms. -/
def waitPlan : PlanCfg :=
  let wait : StepRec := { blankStep with value := 10 }
  { blankPlan with stepCount := 2, steps := (blankPlan.steps.set 0 wait).set 1 wait }

/-- The blank tables with every plan a `waitPlan`. -/
def tabs : Tables := { blankTables with plans := Vector.replicate 8 waitPlan }

/-- A part that has started up with AC_OK asserted, in state `x` with target `g`. -/
def up (x : SysState) (g : Target) : State :=
  { State.reset with sys := x, target := g, tables := tabs, store.checking := false, pins.acOk := true }

/-- The run of plan `p` at its first step, waiting for `w`. -/
def at1 (p : PlanId) (w : Wait) : Run :=
  { plan := p, inTail := false, current := 1, cause := .planned, tailOutcome := .none, tailStep := 0,
    tailCause := .none, stepsDone := 0, wait := w }

/-- `s` with rail `r` in state `x`. -/
def withRail (s : State) (r : Rail) (x : RailState) : State :=
  { s with rails := s.rails.set r { s.rails[r] with state := x } }

/-- `s` with rail `r`'s configuration changed. -/
def withCfg (s : State) (r : Rail) (f : RailCfg → RailCfg) : State :=
  { s with tables.rails := s.tables.rails.set r (f s.tables.rails[r]) }

/-- `s` with fault record `i` holding a latch of LOCKOUT. -/
def latched (s : State) (i : Fin 15) : State :=
  let f : FaultRec :=
    { latch := true, condition := false, occurrences := 1, firstCause := .overvolt, firstValue := 0,
      firstState := some .boardOn, latestCause := .overvolt, action := .lockout }
  { s with faults := s.faults.set i f }

/-- `s` with fault record `i` ACTIVE. -/
def active (s : State) (i : Fin 15) : State :=
  let f : FaultRec :=
    { latch := false, condition := true, occurrences := 1, firstCause := .lockLost, firstValue := 0,
      firstState := some .boardOn, latestCause := .lockLost, action := .none }
  { s with faults := s.faults.set i f }

/-- The state a command leaves. -/
def after (c : Instr) (s : State) : State :=
  match exec c s with
  | .next t => t
  | .fault _ => s
  | .refused _ => s

/-- An IDENTIFY request. -/
def askId : Frame := ⟨0x01, 5, []⟩

/-! ### Well-formed commands -/

/-- A request body of 57 bytes does not fit a frame. -/
theorem test_wellFormed_refuses_a_long_body :
    (Instr.editConfig 1 (List.replicate 57 0)).wellFormed = false := by decide +kernel

theorem test_wellFormed_takes_56_bytes :
    (Instr.editConfig 1 (List.replicate 56 0)).wellFormed = true := by decide +kernel

/-! ### Values the spec works out -/

/-- R161's worked example: C3 00 01 00 15. -/
theorem test_identify_frame : frameBytes 0x01 0x00 [] = [0xC3, 0x00, 0x01, 0x00, 0x15] := by decide +kernel

/-- R91's examples for the bus and the temperature, through the conversions themselves. -/
theorem test_scaled_examples :
    (after (.busVoltageConversion 2400) State.reset).scan.records[0].scaled = 24000
      ∧ (after (.busCurrentConversion 3000) { State.reset with scan.conv := some .busCurrent }).scan.records[1].scaled
          = 6000
      ∧ (after (.slowConversion 1500) { State.reset with scan.conv := some .slow }).scan.records[2].scaled = 204
      ∧ (after (.slowConversion 0) { State.reset with scan.conv := some .slow }).scan.records[2].scaled = -400 := by
  decide +kernel

/-- R91's examples for a rail with fullscale_mV 5,000, on rail 11, and the pointer's return to input 2 (R90). -/
theorem test_scaled_rail :
    let s : State :=
      withCfg { up .standby .standby with scan.conv := some .slow, scan.pointer := 14 } 11
        fun c => { c with fullscaleMV := 5000 }
    (after (.slowConversion 2720) s).scan.records[14].scaled = 3320
      ∧ (after (.slowConversion 4095) s).scan.records[14].scaled = 4998
      ∧ (after (.slowConversion 4095) s).scan.records[14].clipped = true
      ∧ (after (.slowConversion 2720) s).scan.pointer = 2 := by
  decide +kernel

/-- The samples of chapter 7's worked ride: c = 2,200, f = 1,400, p_floor = 5,000, E_reserve = 1,220. -/
theorem test_budget_samples :
    (evaluate ⟨2200, 1400, 5000, 100⟩ 1220 2377 1262 0).tCommit = 47
      ∧ (evaluate ⟨2200, 1400, 5000, 100⟩ 1220 2323 753 0).tCommit = 73
      ∧ (evaluate ⟨2200, 1400, 5000, 100⟩ 1220 1999 875 0).tCommit = 29
      ∧ (evaluate ⟨2200, 1400, 5000, 100⟩ 1220 2260 553 0).tCommit = 89 := by
  decide +kernel

/-- IDENTIFY right after reset (R164, R166, R177): STARTING, revision 0; all but the CRC. -/
theorem test_identify_reply :
    (after (.identify 0x5A []) State.reset).link.tx.dropLast
      = [0xC3, 0x07, 0x81, 0x5A, 0x00, 0x00, 0x48, 0x26, 0x00, 0x00, 0x00] := by decide +kernel

/-- A READ_STATE in STARTING (R163): NOT_READY, an empty body. -/
theorem test_not_ready_reply :
    (after (.readState 0x5A []) State.reset).link.tx.dropLast = [0xC3, 0x02, 0x85, 0x5A, 0x07, 0x00] := by
  decide +kernel

/-- Chapter 7's worked ride with T1 to T4 at 60, 30, 15 and 0. -/
def workedRide : State :=
  { up .panelOn .panelOn with
    pins.acOk := false, ride.state := .riding, scan.conv := some .busCurrent, bud.eReserve := 1220
    tables.budget := ⟨2200, 1400, 5000, 100⟩
    tables.ride := { blankTables.ride with dipLevel := 2000, restoreLevel := 2250, thresholds := #v[60, 30, 15, 0] } }

/-- Its row t = 2 holds tier 1 alone, its row t = 54 holds tiers 1 and 2, and its row t = 10 holds none. -/
theorem test_worked_ride :
    (after (.busCurrentConversion 1262) { workedRide with scan.vb := some 2377 }).tiers.map (·.holds.ride)
        = #v[true, false, false, false]
      ∧ (after (.busCurrentConversion 875) { workedRide with scan.vb := some 1999 }).tiers.map (·.holds.ride)
        = #v[true, true, false, false]
      ∧ (after (.busCurrentConversion 753) { workedRide with scan.vb := some 2323 }).tiers.map (·.holds.ride)
        = #v[false, false, false, false] := by decide +kernel

/-! ### Witnesses: the hypotheses of each statement are met, clause by clause -/

theorem witness_StepTakesTheFrontCommand :
    { State.reset with pending := [.storeVerified] }.pending = .storeVerified :: []
      ∧ (up .standby .standby).pending = [] := by decide +kernel

/-- A sound state other than the reset state, and its step; also for SummaryTellsWhatWaits. -/
theorem witness_StepKeepsSound :
    { State.reset with pending := [.busVoltageConversion 7] }.Sound
      ∧ step { State.reset with pending := [.busVoltageConversion 7] }
          = .next (after (.busVoltageConversion 7) State.reset) :=
  ⟨⟨by unfold keysDistinct; decide +kernel, by decide +kernel, by decide +kernel, by decide +kernel⟩, rfl⟩

/-- CLEAR_FAULT of rail 0 and of rail 11 takes it from FAULTED. -/
theorem witness_FaultedRailLeavesByClearOrReset :
    ∀ r : Rail, r = 0 ∨ r = 11 →
      let s := latched (withRail (up .standby .standby) r .faulted) (srcRail r)
      let c := Instr.clearFault 1 [BitVec.ofNat 8 r.val]
      exec c s = .next (after c s) ∧ s.rails[r].state = .faulted ∧ (after c s).rails[r].state ≠ .faulted := by
  rintro r (rfl | rfl) <;> exact ⟨rfl, by decide +kernel, by decide +kernel⟩

theorem witness_FaultCountsFallOnlyAtReset :
    exec .storeVerified State.reset = .next (after .storeVerified State.reset) ∧ ¬ Instr.storeVerified.isReset :=
  ⟨rfl, by unfold Instr.isReset; decide +kernel⟩

/-- For StateControllerAfterReset, BudgetAfterReset and ResetReturnsEveryBlock. -/
theorem witness_resets :
    Instr.powerOnReset.isReset ∧ Instr.pinReset.isReset ∧ (up .standby .standby).sys ≠ .starting := by
  unfold Instr.isReset; decide +kernel

theorem witness_EndOfPinResetStartsScannerAndCheck :
    { State.reset with pins.inReset := true }.pins.inReset = true ∧ State.reset.pins.inReset = false := by
  decide +kernel

theorem witness_BadImageLeavesUnconfigured :
    State.reset.store.checking = true ∧ State.reset.store.image.good = false ∧ State.reset.sys = .starting
      ∧ State.reset.keyHold = .idle := by decide +kernel

/-- The part in start-up with a good image of `tabs`. -/
def starting : State :=
  { State.reset with store.image := { valid := true, tables := tabs, crc := crc16 tabs.serial } }

theorem witness_GoodImageIsLoaded :
    starting.store.checking = true ∧ starting.store.image.good = true ∧ starting.sys = .starting ∧ starting.run = none
      ∧ starting.reqs = PendingSet.none ∧ starting.keyHold = .idle
      ∧ starting.store.image.tables.system.autoOn = .standby := by
  refine ⟨rfl, ?_, rfl, rfl, rfl, rfl, by decide +kernel⟩
  have h : tabs.ok = true := by decide +kernel
  simp [starting, Image.good, h]

/-- In a frame with these bytes behind the start byte. -/
def got (l : List Byte) : State := { State.reset with link.rx := .inFrame l }

/-- A hunting receiver; a gap of 5,001 µs; LEN 57; LEN 56; one byte short of the CRC; the CRC itself, wrong. -/
theorem witness_ReceiverTakesACharacter :
    State.reset.pins.inReset = false ∧ State.reset.link.rx = .hunting
      ∧ (got []).link.rx = .inFrame [] ∧ 5000 < 5001 ∧ 56 < (57 : Byte).toNat ∧ (56 : Byte).toNat ≤ 56
      ∧ (got [1, 2, 3]).link.rx = .inFrame (1 :: [2, 3]) ∧ [2, 3].length < (1 : Byte).toNat + 2
      ∧ (got [1, 2, 3, 4]).link.rx = .inFrame (1 :: [2, 3, 4]) ∧ [2, 3, 4].length = (1 : Byte).toNat + 2
      ∧ (0 : Byte) ≠ crc8 [1, 2, 3, 4] := by decide +kernel

/-- An empty body, and one of 56 bytes with every gap at 5 ms. -/
theorem witness_CharactersOfAFrameAreTheRequest :
    (Instr.identify 5 []).frame? = some askId ∧ askId.body.length ≤ 56 ∧ (List.replicate 5 0).length = 0 + 5
      ∧ (Instr.editConfig 5 (List.replicate 56 0)).frame? = some ⟨0x10, 5, List.replicate 56 0⟩
      ∧ (List.replicate 61 5000).length = 56 + 5 ∧ (∀ g ∈ (List.replicate 61 5000).tail, g ≤ 5000)
      ∧ State.reset.pins.inReset = false ∧ State.reset.link.rx = .hunting := by decide +kernel

theorem witness_CrcShowsOneWrongByte : (0 : Byte) ≠ 128 := by decide +kernel

/-- A part with a request in service, and `w` waiting. -/
def serving (w : Option Frame) : State := { up .standby .standby with link.service := some askId, link.waiting := w }

theorem witness_BuffersHoldTwoFrames :
    (Instr.identify 5 []).frame? = some askId ∧ (serving none).pins.inReset = false
      ∧ (serving none).link.service ≠ none ∧ (serving none).link.waiting = none
      ∧ (serving (some askId)).link.waiting = some askId ∧ State.reset.link.service = none
      ∧ { State.reset with pins.inReset := true }.pins.inReset = true := by decide +kernel

/-- In STARTING a READ_STATE, at once, as its CRC character completes it, or waiting; elsewhere the KINDs 0 and 19, with
no body and with one of 56 bytes. -/
theorem witness_NotReadyAndUnknownKind :
    (Instr.readState 5 []).frame? = some ⟨5, 5, []⟩ ∧ State.reset.ready ∧ State.reset.sys = .starting
      ∧ (5 : Byte) ≠ 1 ∧ { State.reset with link := (serving (some ⟨5, 5, []⟩)).link }.link.service ≠ none
      ∧ (serving (some ⟨0, 5, []⟩)).link.waiting = some ⟨0, 5, []⟩ ∧ (serving none).sys ≠ .starting
      ∧ ((0 : Byte).toNat = 0 ∨ 18 < (19 : Byte).toNat)
      ∧ { State.reset with link.rx := .inFrame [0, 5, 7] }.ready
      ∧ { up .standby .standby with link.rx := .inFrame [0, 19, 7] }.ready ∧ (0 : Byte).toNat = ([] : List Byte).length
      ∧ (56 : Byte).toNat = (List.replicate 56 (0 : Byte)).length := by
  unfold State.ready; decide +kernel

/-- The link is ready and the part has started up: for BadBodyIsRefused, ReadsAnswerAndChangeNothing,
ClearingReadsClearAfterTheReply, TakeNoticesTakesTheOldest and ResetBoardArmsThePulse. -/
theorem witness_ready :
    (up .standby .standby).ready ∧ (up .standby .standby).sys ≠ .starting
      ∧ (up .boardOn .boardOn).ready ∧ (up .lockout .standby).ready := by unfold State.ready; decide +kernel

theorem witness_BadBodyIsRefused :
    (Instr.identify 5 [0]).frame? = some ⟨1, 5, [0]⟩ ∧ (Instr.identify 5 [0]).badBody
      ∧ (Instr.go 5 [3]).badBody ∧ (Instr.takeNotices 5 [0]).badBody ∧ (Instr.takeNotices 5 [5]).badBody
      ∧ (Instr.runService 5 [8]).badBody ∧ (Instr.readBudget 5 [2]).badBody := by
  refine ⟨rfl, ?_⟩
  unfold Instr.badBody
  decide +kernel

/-- An empty body, and the numbers 1 and 4. -/
theorem witness_TakeNoticesTakesTheOldest :
    (∃ b : Byte, [1] = [b] ∧ 1 = b.toNat ∧ 1 ≤ 1 ∧ 1 ≤ 4) ∧ ∃ b : Byte, [4] = [b] ∧ 4 = b.toNat ∧ 1 ≤ 4 ∧ 4 ≤ 4 :=
  ⟨⟨1, by decide⟩, ⟨4, by decide⟩⟩

theorem witness_RepliesFitTheFrame :
    State.reset.link.tx.length ≤ 61
      ∧ exec (.identify 5 []) State.reset = .next (after (.identify 5 []) State.reset) := ⟨by decide +kernel, rfl⟩

/-! #### Requests -/

/-- Each refusal; the engine at rest, and a transition plan in hand; a service plan without a tail, and with one. -/
theorem witness_GoWritesTheTarget :
    let s : State := { up .boardOn .standby with run := some (at1 .user (.time 9)) }
    let t : State := { s with tables.plans := Vector.replicate 8 { waitPlan with tailIndex := 2 } }
    { up .standby .standby with pins.acOk := false }.unmovedBy .boardOn
      ∧ { up .boardOn .boardOn with run := some (at1 .boardDown .nothing) }.unmovedBy .panelOn
      ∧ (up .unconfigured .standby).ready
      ∧ (up .unconfigured .standby).sys = .unconfigured ∧ (up .lockout .standby).sys = .lockout
      ∧ (up .standby .boardOn).sys = Target.standby.toState
      ∧ { up .standby .boardOn with ride.state := .committed }.ride.state = .committed
      ∧ (up .standby .boardOn).ride.state ≠ .committed ∧ (up .standby .standby).target ≠ .boardOn
      ∧ s.ready ∧ s.sys = Target.boardOn.toState ∧ s.target ≠ .boardOn ∧ (at1 .user (.time 9)).plan.isService = true
      ∧ (s.cfg.plan .user).tailIndex = 0 ∧ s.sys ≠ .panelOn ∧ s.reqs = PendingSet.none
      ∧ ({ s with target := .boardOn } : State).startable = none ∧ t.ready
      ∧ t.tailOpensWithWait (at1 .user (.time 9)) 10 := by
  refine ⟨.inr (by unfold State.atRest; decide +kernel), .inl ⟨_, rfl, rfl⟩, ?_⟩
  unfold State.ready State.tailOpensWithWait
  decide +kernel

theorem witness_GoStartsBoardUp :
    let s := up .standby .standby
    s.ready ∧ s.sys = .standby ∧ s.target = .standby ∧ Target.boardOn ≠ .standby ∧ s.run = none
      ∧ s.reqs = PendingSet.none ∧ s.gateOpen = true ∧ s.dipSeen = false ∧ s.sup = .inactive
      ∧ s.opensWithWait .boardUp 10 := by unfold State.ready State.opensWithWait; decide +kernel

/-- A waiting handshake with a WAIT behind it; none waiting. -/
theorem witness_HandshakeIsAnsweredOrLate :
    let run := at1 .panelDown (.handshake 7)
    let s : State := { up .panelOn .boardOn with run := some run }
    s.run = some run ∧ run.wait = .handshake 7 ∧ s.waitsNext run 10 ∧ s.ready ∧ s.sys ≠ .starting
      ∧ ∀ d, (up .standby .standby).waitOf ≠ .handshake d :=
  ⟨rfl, rfl, by unfold State.waitsNext; decide +kernel, by unfold State.ready; decide +kernel, by decide +kernel,
    fun _ => nofun⟩

/-- `s` with the limit LATCHED in tier `k`, which holds LIMIT. -/
def limitLatched (s : State) (k : Fin 4) : State :=
  { latched s srcBusCurrent with
    limit := { s.limit with state := .latched, softPresent := true, holdTier := some k }
    tiers := s.tiers.set k ⟨⟨false, true, false, false⟩, 1⟩ }

/-- An ACTIVE record; the sources 12 and 14; a limit latched in tiers 1 and 4; a rail outside FAULTED, and one that
drains towards FAULTED. -/
theorem witness_ClearFaultActsOnTheRecord :
    let s := up .standby .standby
    let l (k : Fin 4) : State := limitLatched s k
    let d : State := latched { s with rails := s.rails.set 11 { s.rails[11] with state := .draining, dest := .faulted } } 11
    (active s 14).faults[14].state = .active ∧ s.faults[12].state ≠ .active ∧ 12 ≤ (12 : Fin 15).val
      ∧ (latched s 14).faults[14].state ≠ .active ∧ s.limit.state ≠ .latched ∧ (11 : Fin 15) = srcRail 11
      ∧ (latched s 11).faults[11].state ≠ .active ∧ (latched s 11).rails[11].state ≠ .faulted
      ∧ (latched s 11).sys ≠ .lockout ∧ (active s 14).ready ∧ (latched s 14).ready ∧ s.ready ∧ s.sys ≠ .starting
      ∧ (∀ k : Fin 4, k = 0 ∨ k = 3 → (l k).ready ∧ (l k).sys ≠ .starting ∧ (l k).sys ≠ .lockout
          ∧ (l k).faults[12].state = .latched ∧ (l k).limit.state = .latched ∧ (l k).limit.holdTier = some k
          ∧ (l k).tiers[k].holds.limit = true ∧ (l k).membersAside k)
      ∧ d.ready ∧ d.faults[11].state ≠ .active ∧ d.rails[11].state = .draining ∧ d.rails[11].dest = .faulted := by
  unfold State.ready State.membersAside
  decide +kernel

/-- A FAULTED rail of home NONE, and one of home BOARD in BOARD_ON. -/
theorem witness_ClearFaultReleasesARail :
    let s := latched (withRail (up .boardOn .boardOn) 11 .faulted) 11
    let t := withCfg s 11 fun c => { c with home := .board }
    s.rails[11].state = .faulted ∧ s.faults[srcRail 11].state = .latched
      ∧ (s.railCfg 11).home.covers s.sys = false ∧ t.rails[11].state = .faulted
      ∧ t.faults[srcRail 11].state = .latched ∧ (t.railCfg 11).home.covers t.sys = true ∧ t.run = none
      ∧ t.railShed 11 = false ∧ t.rails[11].pgLevel = .low ∧ s.sys ≠ .starting ∧ s.sys ≠ .lockout ∧ s.ready
      ∧ t.ready := by unfold State.ready; decide +kernel

theorem witness_ClearFaultOfAll :
    let s := latched (active (up .standby .standby) 12) 14
    s.ready ∧ s.sys ≠ .starting ∧ s.sys ≠ .lockout ∧ s.limit.state ≠ .latched
      ∧ (∀ r : Rail, s.rails[r].state ≠ .faulted ∧ s.rails[r].state ≠ .draining)
      ∧ s.faults[srcRail 0].state ≠ .active ∧ (active s 0).faults[srcRail 0].state = .active := by
  unfold State.ready; decide +kernel

/-- One lockout latch, and two. -/
theorem witness_LockoutEndsWithItsLastLatch :
    let s := latched (withRail (up .lockout .standby) 3 .faulted) 3
    s.ready ∧ s.sys = .lockout ∧ s.rails[3].state = .faulted ∧ s.faults[srcRail 3].isLockout = true ∧ s.run = none
      ∧ s.reqs = PendingSet.none ∧ s.target = .standby ∧ s.keyHold = .idle
      ∧ (∀ i : Fin 15, i ≠ srcRail 3 → s.faults[i].isLockout = false)
      ∧ ((14 : Fin 15) ≠ srcRail 3 ∧ (latched s 14).faults[14].isLockout = true) := by
  unfold State.ready; decide +kernel

/-- A hold as asked, and one not; a tier with a rail member that rests OFF. -/
theorem witness_SetHoldPlacesAndRemoves :
    let s := withCfg (up .standby .standby) 2 fun c => { c with tier := 4 }
    s.ready ∧ s.sys ≠ .starting ∧ s.membersAside 3 ∧ s.members 3 = [2] ∧ s.tiers[3].holds.host = false
      ∧ s.tiers[3].holds.host ≠ true := by
  unfold State.ready State.membersAside; decide +kernel

/-- The rail ON, RAMPING and between two attempts under no hold, and SHED under HOST alone. -/
theorem witness_HoldShedsAndUnshedsARail :
    let s := withCfg (up .boardOn .boardOn) 2 fun c => { c with tier := 1, monitor := .window }
    let shed : State := { withRail s 2 .shed with tiers := s.tiers.set 0 ⟨⟨false, false, false, true⟩, 1⟩ }
    let between : State := { s with rails := s.rails.set 2 { s.rails[2] with state := .draining, dest := .ramp } }
    (∀ x : RailState, x = .on ∨ x = .ramping →
        (withRail s 2 x).ready ∧ (withRail s 2 x).members 0 = [2] ∧ (withRail s 2 x).rails[2].state = x
          ∧ (withRail s 2 x).rails[2].winDetector = false ∧ (withRail s 2 x).rails[2].pgDetector = false)
      ∧ between.ready ∧ between.members 0 = [2] ∧ between.rails[2].state = .draining ∧ between.rails[2].dest = .ramp
      ∧ shed.ready ∧ s.sys ≠ .starting ∧ s.tiers[0].holds = ⟨false, false, false, false⟩ ∧ (s.railCfg 2).monitor ≠ .pg
      ∧ shed.members 0 = [2] ∧ shed.tiers[0].holds = ⟨false, false, false, true⟩ ∧ shed.rails[2].state = .shed
      ∧ shed.notMetAtOnce 2 := by
  refine ⟨?_, ?_⟩
  · unfold State.ready
    rintro x (rfl | rfl) <;> decide +kernel
  · unfold State.ready State.notMetAtOnce
    decide +kernel

/-- Refused; running; pending; behind a running plan; started. -/
theorem witness_RunServiceRequestsThePlan :
    let s := up .boardOn .boardOn
    ((6 : Byte) = 6 ∧ PlanId.panelCare = .panelCare)
      ∧ ¬ ((PlanId.user = .panelCare ∧ (up .standby .standby).sys = .standby) ∨ (up .standby .standby).sys = .boardOn
          ∨ (PlanId.user = .user ∧ (up .standby .standby).sys = .panelOn))
      ∧ s.sys = .boardOn ∧ { s with run := some (at1 .user .nothing) }.runningPlan = some .user
      ∧ { s with reqs := { PendingSet.none with user := some .hostRequest } }.planStatus .user = .pending
      ∧ { s with run := some (at1 .boardUp .nothing) }.planStatus .user = .idle
      ∧ { s with run := some (at1 .boardUp .nothing) }.run ≠ none
      ∧ s.run = none ∧ s.reqs = PendingSet.none ∧ s.startable = none ∧ s.opensWithWait .user 10
      ∧ s.sup = .inactive ∧ s.dipSeen = false := by
  unfold State.opensWithWait; decide +kernel

theorem witness_ResetBoardArmsThePulse :
    { up .boardOn .boardOn with pulse := .armed }.pulse ≠ .idle ∧ (up .standby .standby).pulse = .idle
      ∧ (up .standby .standby).sys ≠ .boardOn ∧ (up .standby .standby).sys ≠ .panelOn
      ∧ (up .boardOn .boardOn).sys = .boardOn ∧ (up .boardOn .boardOn).run = none := by decide +kernel

/-! #### The configuration store -/

theorem witness_AddressesAreOneToOne :
    address 5 0 5 = some .system ∧ address 1 7 16 = some (.step .user 15) := by decide +kernel

theorem witness_FieldsRoundTrip : tabs.ok = true ∧ Group.system ≠ .line .faultN := by decide +kernel

theorem witness_EditWritesOneGroup : ∃ u, tabs.edited .lock (tabs.fields .lock) = some u ∧ Group.lock ≠ .system :=
  ⟨_, rfl, by decide⟩

/-- Fields out of range; out of NORMAL; a write or the plan in hand; a used rail that is not OFF. -/
theorem witness_EditIsRefusedInOrder :
    let s := up .boardOn .boardOn
    s.tables.edited .lock [0, 0, 0] = none ∧ (∃ u, s.tables.edited .lock (s.tables.fields .lock) = some u)
      ∧ { s with ride.state := .qualify }.ride.state ≠ .normal ∧ { s with store.writing := true }.store.writing = true
      ∧ { s with run := some (at1 .user .nothing) }.planStatus .user ≠ .idle
      ∧ s.tables.edited (.sense 0) ((withCfg s 0 fun c => { c with used := true }).tables.fields (.sense 0))
          = some (withCfg s 0 fun c => { c with used := true }).tables
      ∧ (withRail s 0 .ramping).rails[0].state ≠ .off ∧ s.ride.state = .normal ∧ s.store.writing = false
      ∧ s.ready ∧ (withRail s 0 .ramping).ready ∧ s.sys ≠ .starting := by
  refine ⟨by decide +kernel, ⟨_, rfl⟩, ?_⟩
  unfold State.ready; decide +kernel

/-- The edit of group `g` to its entry in `t` passes every check of R174 in `s`. -/
def edits (s : State) (g : Group) (t : Tables) : Prop :=
  s.tables.edited g (t.fields g) = some t ∧ s.planBusy g = false ∧ s.hardRefused g t = false ∧ s.ready
    ∧ s.ride.state = .normal ∧ s.store.writing = false ∧ s.sys ≠ .starting ∧ s.sys ≠ .unconfigured

/-- The groups whose edit leaves the rest alone, or only the reserve. -/
theorem witness_EditIsAccepted :
    let s := up .boardOn .boardOn
    (∀ g ∈ [Group.tier 3, .line .gpoB, .wake .aux, .ride, .lock, .system, .step .user 15, .budget, .timing 11,
        .header .boardSnap], edits s g s.tables)
      ∧ (up .unconfigured .standby).sys = .unconfigured ∧ (up .unconfigured .standby).ready := by
  unfold edits State.ready
  decide +kernel

/-- SENSE: rail 0 put into use and taken out of it. POLICY: another home; a REPORT condition ended; a running rail into
a shed tier; a SHED one out of it. -/
theorem witness_EditIsAccepted_rail :
    let s : State := { up .boardOn .boardOn with tiers := Vector.replicate 4 ⟨⟨false, false, false, true⟩, 1⟩ }
    let used (s : State) (b : Bool) : State := withCfg s 0 fun c => { c with used := b, lowMV := 2000 }
    let mode (s : State) (m : FaultMode) : State := withCfg s 0 fun c => { c with faultMode := m }
    let tier (s : State) (n : Fin 5) : State := withCfg s 0 fun c => { c with tier := n, monitor := .window }
    edits (used s false) (.sense 0) (used s true).tables ∧ edits (used s true) (.sense 0) (used s false).tables
      ∧ edits s (.policy 0) (withCfg s 0 fun c => { c with home := .panel }).tables
      ∧ edits (active (mode s .report) 0) (.policy 0) (mode s .latch).tables
      ∧ (active s 0).faults[srcRail 0].state = .active ∧ (active s 0).faults[srcRail 0].firstCause ≠ .none
      ∧ edits (withRail (tier s 0) 0 .on) (.policy 0) (tier s 1).tables ∧ (withRail (tier s 1) 0 .on).railShed 0 = true
      ∧ (withRail s 0 .on).rails[0].state = .on ∧ s.rails[0].winDetector = false ∧ s.rails[0].pgDetector = false
      ∧ edits (withRail (tier s 1) 0 .shed) (.policy 0) (tier s 0).tables
      ∧ (withRail (tier s 0) 0 .shed).railShed 0 = false ∧ (withRail s 0 .shed).rails[0].state = .shed
      ∧ (tier s 0).notMetAtOnce 0 := by
  unfold edits State.ready State.notMetAtOnce
  decide +kernel

/-- LIMIT and THERMAL: no hold placed; a hold moved from tier 1 to tier 4; an episode ended, NOTED and LIMITING; the
mode OFF with a hard condition present. -/
theorem witness_EditIsAccepted_limits :
    let s := up .boardOn .boardOn
    let lim (s : State) (m : LimitMode) (k : Fin 4) : State :=
      { s with tables.limit := { s.tables.limit with mode := m, tier := k } }
    let heat (s : State) (k : Fin 4) : State := { s with tables.thermal := { s.tables.thermal with tier := k } }
    let at_ (x : LimitState) (k : Option (Fin 4)) : State :=
      { active s srcBusCurrent with
        limit := { s.limit with state := x, holdTier := k }
        tiers := s.tiers.set 0 ⟨⟨false, k.isSome, false, false⟩, 1⟩ }
    let hot : State := { s with thermal := ⟨.warn, some 0⟩, tiers := s.tiers.set 0 ⟨⟨false, false, true, false⟩, 1⟩ }
    edits (lim s .level 0) .limit (lim s .level 3).tables ∧ s.limit.holdTier = none ∧ s.limit.state = .watch
      ∧ edits (lim (at_ .limiting (some 0)) .level 0) .limit (lim s .level 3).tables
      ∧ (at_ .limiting (some 0)).tiers[0].holds.limit = true ∧ (at_ .limiting (some 0)).tiers[3].holds.limit = false
      ∧ s.membersAside 0 ∧ s.membersAside 3
      ∧ edits (lim (at_ .noted none) .report 0) .limit (lim s .level 0).tables
      ∧ edits (lim (at_ .limiting (some 0)) .level 0) .limit (lim s .off 0).tables
      ∧ (at_ .limiting (some 0)).limit.hardPresent = false ∧ (at_ .noted none).faults[srcBusCurrent].state = .active
      ∧ (at_ .noted none).faults[srcBusCurrent].firstCause ≠ .none
      ∧ edits (lim { at_ .watch none with limit.hardPresent := true } .level 0) .limit (lim s .off 0).tables
      ∧ edits s .thermal (heat s 3).tables ∧ s.thermal.holdTier = none ∧ edits hot .thermal (heat s 3).tables
      ∧ hot.thermal.holdTier = some 0 ∧ hot.tiers[0].holds.heat = true ∧ hot.tiers[3].holds.heat = false := by
  unfold edits State.ready State.membersAside
  decide +kernel

theorem witness_EditKeepsTheReserve :
    let s := up .boardOn .boardOn
    let c := Instr.editConfig 1 (Group.lock.addressBytes ++ s.tables.fields .lock)
    s.sys ≠ .starting ∧ s.sys ≠ .unconfigured ∧ s.reserveMatches ∧ exec c s = .next (after c s) :=
  ⟨by decide +kernel, by decide +kernel, by unfold State.reserveMatches; decide +kernel, rfl⟩

theorem witness_StoreWritesTheImage :
    let s := up .standby .standby
    let u : State := { up .unconfigured .standby with store.writing := true }
    s.ready ∧ s.sys ≠ .starting ∧ { s with pins.acOk := false }.pins.acOk = false ∧ s.ride.state = .normal
      ∧ s.pins.acOk = true ∧ { s with store.writing := true }.store.writing = true ∧ s.store.writing = false
      ∧ s.sys ≠ .unconfigured ∧ u.store.writing = true ∧ u.sys = .unconfigured ∧ u.run = none
      ∧ u.reqs = PendingSet.none ∧ u.keyHold = .idle ∧ u.tables.system.autoOn = .standby := by
  unfold State.ready
  decide +kernel

theorem witness_StoredTablesSurviveAPinReset :
    let s := up .standby .standby
    s.ready ∧ s.sys ≠ .starting ∧ s.ride.state = .normal ∧ s.pins.acOk = true ∧ s.store.writing = false
      ∧ s.tables.ok = true := by unfold State.ready; decide +kernel

/-! #### Mains, ride-through, commit -/

/-- Unarmed in STANDBY, armed in BOARD_ON; each ride state; QUALIFY with Vb one below dip_level and at it; the gate's
opening with and without an armed return. -/
theorem witness_AcOkChangeMovesTheRide :
    let s := up .standby .standby
    let b := up .boardOn .boardOn
    let off (r : RideState) : State := { s with pins.acOk := false, ride.state := r }
    let q (vb : Nat) : State := { off .qualify with bud.record.vb := vb }
    let ret : State := { off .normal with sys := .boardOn, retArmed := true, retVal := some .boardOn }
    s.pins.acOk = true ∧ s.ride.state = .normal ∧ s.rideArmed = false ∧ b.ride.state = .normal ∧ b.rideArmed = true
      ∧ 0 < b.cfg.ride.qualifyMs ∧ { b with ride.state := .riding, ride.settling := true }.ride.settling = true
      ∧ { b with ride.state := .riding }.ride.settling = false ∧ { b with ride.state := .qualify }.pins.acOk = true
      ∧ (off .qualify).pins.acOk = false ∧ (off .qualify).ride.state = .qualify ∧ (off .qualify).retArmed = false
      ∧ (q 1799).bud.record.vb < (q 1799).cfg.ride.dipLevel ∧ (q 1800).cfg.ride.dipLevel ≤ (q 1800).bud.record.vb
      ∧ (off .normal).ride.belowDip ≠ 2 ∧ (off .normal).sys ≠ .starting ∧ (off .normal).thermal.state ≠ .hot
      ∧ ret.retArmed = true ∧ ret.retVal = some .boardOn ∧ Target.boardOn ≠ ret.target := by
  decide +kernel

/-- The states an opened gate leaves still: at rest, at rest again with the return's target, and a plan in hand. -/
theorem witness_AcOkChange_still :
    (up .standby .standby).still ∧ (up .boardOn .boardOn).still
      ∧ { up .standby .standby with run := some (at1 .boardUp .nothing) }.still := by
  refine ⟨.inr ?_, .inr ?_, .inl ⟨_, rfl, rfl⟩⟩ <;> (unfold State.atRest; decide +kernel)

/-- RIDING or RESTORING in BOARD_ON, with RIDE held by the tiers of `l`. -/
def riding (l : List (Fin 4)) : State :=
  let s := up .boardOn .boardOn
  { s with
    ride := { s.ride with state := .riding, settling := true, qualifyTimer := some 1, settleTimer := some 1,
                          restoreTimer := some 1 }
    tiers := s.tiers.mapFinIdx fun i x h => { x with holds.ride := l.contains ⟨i, h⟩ } }

/-- Tier 4 highest with tier 1 below it, tier 1 alone, and no tier. -/
theorem witness_RideTimersMoveTheRide :
    State.reset.ride.qualifyTimer = none ∧ (riding []).ride.qualifyTimer ≠ none
      ∧ (riding [0, 3]).tiers[3].holds.ride = true ∧ (riding [0, 3]).membersAside 3
      ∧ (∀ j : Fin 4, 3 < j → (riding [0, 3]).tiers[j].holds.ride = false)
      ∧ (∃ j : Fin 4, j < 3 ∧ (riding [0, 3]).tiers[j].holds.ride = true) ∧ (riding [0, 3]).ride.settleTimer ≠ none
      ∧ (riding [0]).tiers[0].holds.ride = true ∧ (riding [0]).membersAside 0
      ∧ (∀ j : Fin 4, j ≠ 0 → (riding [0]).tiers[j].holds.ride = false) ∧ (riding [0]).ride.restoreTimer ≠ none
      ∧ (riding [0]).ride.settleTimer ≠ none ∧ (riding [0]).pins.acOk = true ∧ (riding [0]).retArmed = false
      ∧ (∀ j : Fin 4, (riding []).tiers[j].holds.ride = false) ∧ (riding []).ride.settleTimer ≠ none
      ∧ (riding []).pins.acOk = true ∧ (riding []).retArmed = false := by
  unfold State.membersAside; decide +kernel

theorem witness_RideTimers_still :
    let s := riding [0]
    let s1 : State :=
      { s with tiers := s.tiers.set 0 { s.tiers[0] with holds := { s.tiers[0].holds with ride := false } } }
    s1.afterRecovery.still ∧ s1.afterSettling.afterRecovery.still ∧ (riding []).afterSettling.afterRecovery.still := by
  refine ⟨.inr ?_, .inr ?_, .inr ?_⟩ <;> (unfold State.atRest; decide +kernel)

/-- NORMAL in STANDBY and in BOARD_ON, QUALIFY with Vb one below dip_level and at it, RIDING above and below the
reserve, RESTORING's second low evaluation. -/
theorem witness_EvaluationsGovernTheRide :
    let b (x : State) (r : RideState) : State :=
      { x with scan.conv := some .busCurrent, scan.vb := some 1799, ride.state := r, ride.belowDip := 1 }
    let s := up .standby .standby
    let p := b (up .boardOn .boardOn) .riding
    let q : State := { b (up .boardOn .boardOn) .qualify with scan.vb := some 1800 }
    let r (er : Nat) : BudgetRec := evaluate p.cfg.budget er 1799 4095 p.bud.record.count
    p.scan.conv = some .busCurrent ∧ p.scan.vb = some 1799 ∧ p.cfg.limit.mode = .off ∧ p.limit.state = .watch
      ∧ (∀ k : Fin 4, p.membersAside k) ∧ (b s .normal).rideArmed = false
      ∧ (b (up .boardOn .boardOn) .normal).rideArmed = true ∧ 1799 < p.cfg.ride.dipLevel ∧ satInc 2 1 = 2
      ∧ 0 < p.cfg.ride.qualifyMs ∧ p.ride.state = .riding ∧ 0 < (r p.bud.eReserve).h ∧ 0 < p.cfg.ride.settleMs
      ∧ p.ride.settling = false ∧ 1799 < p.cfg.ride.restoreLevel ∧ 2100 = p.cfg.ride.restoreLevel
      ∧ (r 65535).h ≤ 0 ∧ p.sys = Target.boardOn.toState ∧ p.target ≠ .standby ∧ p.run = none
      ∧ p.reqs = PendingSet.none ∧ p.sup = .inactive ∧ p.opensWithWait .panelSnap 10
      ∧ (b s .restoring).ride.state = .restoring ∧ q.scan.vb = some 1800 ∧ q.ride.state = .qualify
      ∧ q.pins.acOk = true ∧ q.cfg.ride.dipLevel ≤ 1800 ∧ q.retArmed = false
      ∧ ({ q with ride.state := .normal } : State).run = none
      ∧ ({ q with ride.state := .normal } : State).startable = none := by
  unfold State.membersAside State.opensWithWait
  decide +kernel

/-- The commit; the end of the rest with the gate closed and open; BOARD_SNAP's last WAIT in COMMITTED. -/
theorem witness_CommitAndReturn :
    let s : State := { up .panelOn .panelOn with ride.limitTimer := some 1 }
    let r : State := { up .standby .standby with ride.state := .rest, ride.restTimer := some 1 }
    let r' : State := { r with tables.ride.autoReturn := true, retVal := some .boardOn }
    let last : Run := { at1 .boardSnap (.time 9) with current := 2 }
    let e : State := { up .boardOn .standby with run := some last, ride.state := .committed }
    s.run = none ∧ s.reqs = PendingSet.none ∧ s.sup = .inactive ∧ s.ride.limitTimer ≠ none
      ∧ s.sys = Target.panelOn.toState ∧ s.target ≠ .standby ∧ s.opensWithWait .panelSnap 10
      ∧ State.reset.ride.limitTimer = none ∧ State.reset.ride.restTimer = none
      ∧ r.ride.restTimer ≠ none ∧ { r with pins.acOk := false }.pins.acOk = false
      ∧ { r with pins.acOk := false }.rideArmed = false ∧ { r with pins.acOk := false }.sup = .inactive
      ∧ r'.run = none ∧ r'.reqs = PendingSet.none ∧ r'.sup = .inactive ∧ r'.ride.restTimer ≠ none
      ∧ r'.ride.state = .rest ∧ r'.pins.acOk = true ∧ r'.thermal.state ≠ .hot ∧ r'.sys = .standby
      ∧ r'.target = .standby ∧ r'.cfg.ride.autoReturn = true ∧ r'.retVal = some .boardOn ∧ Target.boardOn ≠ .standby
      ∧ r'.opensWithWait .boardUp 10
      ∧ e.run = some last ∧ last.wait = .time 9 ∧ last.plan = .boardSnap ∧ last.inTail = false
      ∧ (e.cfg.plan .boardSnap).bodyLast ≤ last.current ∧ e.sys = .boardOn ∧ e.target = .standby
      ∧ e.reqs = PendingSet.none ∧ e.keyHold = .idle ∧ (∀ i : Fin 15, e.faults[i].isLockout = false)
      ∧ e.ride.state = .committed ∧ 0 < e.cfg.ride.restMs ∧ ∀ k : Fin 4, e.membersAside k := by
  unfold State.opensWithWait State.membersAside
  decide +kernel

/-! #### Wake lines and the key hold -/

/-- A line deasserted and asserted; a qualifier that times in BOARD_ON, and in STANDBY with BOARD_SNAP in COMMITTED
(neither effective); in STANDBY with the line's target, and with another target behind a closed gate; one that does not
time. -/
theorem witness_WakeLinesAreQualified :
    let s := up .standby .standby
    let q (x : State) : State := { x with wakeQ := x.wakeQ.set 2 (.qualifying 9) }
    let c : State := { q s with run := some (at1 .boardSnap (.time 9)), ride.state := .committed }
    { q s with pins.acOk := false, wakeQ := (q s).wakeQ.set 2 .held }.unmovedBy .boardOn
      ∧ (∀ d, s.keyHold ≠ .timing d) ∧ (∀ d, s.wakeQ[wakeIdx .aux] ≠ .qualifying d)
      ∧ s.pins.wake[wakeIdx .aux] = false
      ∧ { s with pins.wake := s.pins.wake.set 2 true }.pins.wake[wakeIdx .aux] = true
      ∧ (q (up .boardOn .boardOn)).wakeQ[wakeIdx .aux] = .qualifying 9
      ∧ (q (up .boardOn .boardOn)).sys ≠ .standby ∧ (q (up .boardOn .boardOn)).runningPlan = none
      ∧ c.wakeQ[wakeIdx .aux] = .qualifying 9 ∧ c.sys = .standby ∧ c.runningPlan = some .boardSnap
      ∧ c.ride.state = .committed ∧ (q (up .standby .boardOn)).sys = .standby
      ∧ (q (up .standby .boardOn)).runningPlan = none
      ∧ (q (up .standby .boardOn)).target = ((q (up .standby .boardOn)).cfg.wake .aux).target
      ∧ (q s).target ≠ ((q s).cfg.wake .aux).target := by
  refine ⟨.inr (by unfold State.atRest; decide +kernel), fun _ => nofun, fun _ => nofun, ?_⟩
  decide +kernel

/-- In COMMITTED; the idle engine; a transition plan, and a service plan with the target STANDBY, that is cut;
BOARD_SNAP in hand. -/
theorem witness_KeyHoldForcesOff :
    let s : State := { up .panelOn .boardOn with keyHold := .timing 9 }
    let cut : State := { s with run := some (at1 .panelDown (.handshake 8)) }
    let svc : State := { up .boardOn .standby with keyHold := .timing 9, run := some (at1 .user (.time 8)) }
    let r : State := { up .boardOn .standby with keyHold := .timing 9, run := some (at1 .boardSnap (.time 8)) }
    (∀ d, State.reset.keyHold ≠ .timing d) ∧ s.keyHold = .timing 9 ∧ s.sys = .panelOn
      ∧ { s with ride.state := .committed }.ride.state = .committed ∧ s.ride.state ≠ .committed ∧ s.snapReady 10
      ∧ s.target ≠ .standby ∧ cut.run = some (at1 .panelDown (.handshake 8)) ∧ PlanId.panelDown.isSnap = false
      ∧ PlanId.panelDown.isService = false ∧ ({ cut with run := none } : State).snapReady 10
      ∧ svc.keyHold = .timing 9 ∧ svc.sys = .boardOn ∧ svc.ride.state ≠ .committed ∧ svc.target = .standby
      ∧ svc.run = some (at1 .user (.time 8)) ∧ ({ svc with run := none } : State).snapReady 10
      ∧ r.keyHold = .timing 9 ∧ r.sys = .boardOn ∧ r.run = some (at1 .boardSnap (.time 8))
      ∧ (at1 .boardSnap (.time 8)).plan = .boardSnap ∧ r.reqs = PendingSet.none ∧ r.target = .standby :=
  ⟨fun _ => nofun, by unfold State.snapReady State.opensWithWait; decide +kernel⟩

/-! #### Rails -/

/-- Rail 11 in state `x` with pg qualification timing towards the pin's level `high`. -/
def pgRail (x : RailState) (high : Bool) : State :=
  let s := withRail (withCfg (up .boardOn .boardOn) 11 fun c => { c with used := true }) 11 x
  { s with pins.pg := s.pins.pg.set 11 high, rails := s.rails.set 11 { s.rails[11] with pgTimer := some 9 } }

/-- Rail 11 used with monitor `m`, LATCH and fault_action `a`, as `pgRail`. -/
def pgMon (x : RailState) (high : Bool) (m : Monitor) (a : RailAction) : State :=
  withCfg (pgRail x high) 11 fun c => { c with monitor := m, faultAction := a }

/-- `s` with rail 11's record changed. -/
def withRt (s : State) (f : RailRt → RailRt) : State := { s with rails := s.rails.set 11 (f s.rails[11]) }

/-- `s` with rail 11's fault mode changed. -/
def withMode (s : State) (m : FaultMode) : State := withCfg s 11 fun c => { c with faultMode := m }

/-- The qualifier: a stopped and a running timer; RAMPING to ON; the end of a drain; an ON rail whose power comes back
and whose power is lost, in each mode and with the fault_actions DROP and LOCKOUT, the retry count at its limit and one
below. -/
theorem witness_PowerGoodIsQualified :
    let on := pgRail .on false
    let back (d w : Bool) : State :=
      withRt (active (pgRail .on true) 11) fun x => { x with pgDetector := d, winDetector := w }
    let retry (n : Nat) : State := withRt (withMode on .retry) fun x => { x with retryCount := n }
    true ≠ State.reset.pins.pg[(11 : Rail)] ∧ State.reset.rails[(11 : Rail)].pgTimer = none
      ∧ (pgRail .off true).rails[11].pgTimer ≠ none ∧ (pgRail .off true).rails[11].state = .off
      ∧ (pgRail .ramping true).rails[11].state = .ramping ∧ ((pgRail .ramping true).railCfg 11).monitor = .pg
      ∧ (pgRail .ramping true).pins.pg[(11 : Rail)] = true ∧ (pgRail .ramping true).noStepOn 11
      ∧ (pgRail .draining false).rails[11].state = .draining ∧ (pgRail .draining false).rails[11].dest = .off
      ∧ (pgRail .draining false).rails[11].clearedInDrain = false ∧ (pgRail .draining false).noStepOn 11
      ∧ (back true false).rails[11].pgDetector = true ∧ (back true false).rails[11].winDetector = false
      ∧ (back true false).faults[srcRail 11].state = .active ∧ (back true true).rails[11].winDetector = true
      ∧ (back false false).rails[11].pgDetector = false ∧ on.rails[11].state = .on ∧ (on.railCfg 11).monitor = .pg
      ∧ on.pins.pg[(11 : Rail)] = false ∧ on.rails[11].pgDetector = false
      ∧ (withRt on fun x => { x with pgDetector := true }).rails[11].pgDetector = true
      ∧ ((withMode on .report).railCfg 11).faultMode = .report
      ∧ ((withMode on .ignore).railCfg 11).faultMode = .ignore ∧ ((retry 0).railCfg 11).faultMode = .retry
      ∧ ((retry 0).railCfg 11).retryLimit.max = some 1 ∧ (retry 0).rails[11].retryCount < 1
      ∧ 1 ≤ (retry 1).rails[11].retryCount ∧ on.faults[srcRail 11].condition = false
      ∧ (on.railCfg 11).faultMode = .latch ∧ (on.railCfg 11).faultAction = .drop ∧ on.noStepOn 11
      ∧ ((pgMon .on false .pg .lockout).railCfg 11).faultAction = .lockout
      ∧ (pgMon .on false .pg .lockout).snapReady 10 := by
  unfold State.noStepOn State.snapReady State.opensWithWait
  decide +kernel

/-- The conversions of rail 11 with low_mV 3,000, high_mV 3,600 and fullscale_mV 4,096, a code being its mV: RAMPING one
below the window, at its ends, above it; ON at the ends, above it for the first and the last reading, in each mode. -/
theorem witness_PowerGoodIsQualified_conversion :
    let c (x : RailState) (m : Monitor) (f : FaultMode) (a : RailAction) : State :=
      { withCfg (pgMon x true m a) 11 (fun c =>
          { c with lowMV := 3000, highMV := 3600, fullscaleMV := 4096, windowSamples := 2, drainMV := 100,
                   faultMode := f }) with
        scan.conv := some .slow, scan.pointer := 14 }
    let n (s : State) (k : Nat) : State := withRt s fun x => { x with oow := k }
    let s := c .on .window .latch .drop
    let low (s : State) : State := withRt s fun x => { x with pgLevel := .low }
    let high (s : State) : State := withRt s fun x => { x with pgLevel := .high }
    let bad (w p : Bool) : State := withRt (active s 11) fun x => { x with winDetector := w, pgDetector := p }
    s.scan.conv = some .slow ∧ s.scan.pointer = 14 ∧ inputRail 14 = 11 ∧ (s.railCfg 11).used = true
      ∧ (∀ k : Code, k ∈ [2999, 3000, 3600, 3601, 100, 101] →
          k.toNat * (s.railCfg 11).fullscaleMV / 4096 = k.toNat)
      ∧ (s.railCfg 11).lowMV = 3000 ∧ (s.railCfg 11).highMV = 3600 ∧ (s.railCfg 11).drainMV = 100
      ∧ (c .ramping .window .latch .drop).rails[11].state = .ramping
      ∧ (low (c .ramping .both .latch .drop)).rails[11].pgLevel = .low
      ∧ (high (c .ramping .both .latch .drop)).rails[11].pgLevel = .high
      ∧ (c .ramping .window .latch .drop).noStepOn 11 ∧ s.rails[11].oow + 1 < (s.railCfg 11).windowSamples
      ∧ (c .draining .window .latch .drop).rails[11].state = .draining ∧ s.rails[11].state = .on
      ∧ s.rails[11].winDetector = false ∧ (bad true false).rails[11].winDetector = true
      ∧ (bad true false).rails[11].pgDetector = false ∧ (bad true true).rails[11].pgDetector = true
      ∧ (bad true false).faults[srcRail 11].state = .active
      ∧ (s.railCfg 11).windowSamples ≤ (n s 1).rails[11].oow + 1
      ∧ ((c .on .window .report .drop).railCfg 11).faultMode = .report
      ∧ ((c .on .window .ignore .drop).railCfg 11).faultMode = .ignore
      ∧ ((c .on .both .retry .drop).railCfg 11).faultMode = .retry ∧ s.rails[11].retryCount < 1
      ∧ s.faults[srcRail 11].condition = false ∧ s.noStepOn 11 ∧ (c .on .window .latch .panel).snapReady 10
      ∧ ((c .on .window .latch .panel).railCfg 11).faultAction = .panel
      ∧ (c .on .both .latch .system).snapReady 10 := by
  unfold State.noStepOn State.snapReady State.opensWithWait
  decide +kernel

/-- `s` with a run of BOARD_UP waiting on rail 0 in its first step, a RAIL step of kind `k` passed over. -/
def railStep (s : State) (k : StepKind) (w : Wait) : State :=
  let p : PlanCfg := { waitPlan with steps := waitPlan.steps.set 0 { blankStep with kind := k, onMiss := .goOn } }
  { s with run := some (at1 .boardUp w), tables.plans := s.tables.plans.set 0 p }

/-- A RAIL_ON step that waits on rail 11 as it goes ON by its pin and by a conversion, and a RAIL_OFF step that waits on
it as its drain ends. -/
theorem witness_PowerGoodIsQualified_steps :
    let on := railStep (pgRail .ramping true) .railOn (.railOn 11)
    let off := railStep (pgRail .draining false) .railOff (.railOff 11)
    let conv := railStep (pgMon .ramping true .window .drop) .railOn (.railOn 11)
    on.waitsOn (.railOn 11) (at1 .boardUp (.railOn 11)) 10 ∧ on.rails[11].state = .ramping
      ∧ (on.railCfg 11).monitor = .pg ∧ on.pins.pg[(11 : Rail)] = true
      ∧ off.waitsOn (.railOff 11) (at1 .boardUp (.railOff 11)) 10 ∧ off.rails[11].state = .draining
      ∧ off.rails[11].dest = .off ∧ off.rails[11].clearedInDrain = false ∧ off.pins.pg[(11 : Rail)] = false
      ∧ conv.waitsOn (.railOn 11) (at1 .boardUp (.railOn 11)) 10 ∧ conv.rails[11].state = .ramping
      ∧ (conv.railCfg 11).monitor = .window := by
  unfold State.waitsOn State.waitsNext
  decide +kernel

/-- The ladder's two ends, with no plan (DROP and SYSTEM) and with a RAIL_ON step waiting. -/
theorem witness_RampDeadlineClimbsTheLadder :
    let s := withRail (withCfg (up .standby .boardOn) 0 fun c => { c with monitor := .both }) 0 .ramping
    let t : State := { s with rails := s.rails.set 0 { s.rails[0] with attempt := 1 } }
    let sys := withCfg t 0 fun c => { c with faultAction := .system }
    let u := railStep t .railOn (.railOn 0)
    State.reset.rails[0].state ≠ .ramping ∧ s.rails[0].state = .ramping ∧ s.rails[0].winDetector = false
      ∧ s.rails[0].pgDetector = false ∧ (s.railCfg 0).monitor ≠ .pg ∧ s.rails[0].attempt < (s.railCfg 0).ladder
      ∧ (t.railCfg 0).ladder ≤ t.rails[0].attempt ∧ (t.railCfg 0).faultAction = .drop ∧ t.noStepOn 0
      ∧ (sys.railCfg 0).faultAction = .system ∧ sys.rails[0].state = .ramping ∧ sys.snapReady 10
      ∧ u.run = some (at1 .boardUp (.railOn 0)) ∧ u.rails[0].state = .ramping
      ∧ u.waitsNext (at1 .boardUp (.railOn 0)) 10 ∧ (u.stepOf .boardUp 1).onMiss = .goOn := by
  unfold State.noStepOn State.waitsNext State.snapReady State.opensWithWait
  decide +kernel

/-- Each destination, its tier shed or not; a rail cleared in its drain, its home covering the state or not; a waiting
RAIL_OFF step; a conversion at drain_mV; the retry wait, the tier shed or not. -/
theorem witness_DrainsAndRetriesEnd :
    let c0 := withCfg (up .boardOn .boardOn) 0 fun c => { c with used := true, monitor := .window, tier := 1 }
    let d (x : Dest) : State :=
      { c0 with rails := c0.rails.set 0 { c0.rails[0] with state := .draining, dest := x },
                scan.conv := some .slow, scan.pointer := 3 }
    let cleared : State := { d .off with rails := (d .off).rails.set 0 { (d .off).rails[0] with clearedInDrain := true } }
    let home := withCfg cleared 0 fun c => { c with home := .board }
    let u := railStep (d .off) .railOff (.railOff 0)
    let w := withRail c0 0 .retryWait
    let held (s : State) : State := { s with tiers := s.tiers.set 0 ⟨⟨false, false, true, false⟩, 1⟩ }
    State.reset.rails[0].state ≠ .draining ∧ (d .off).rails[0].clearedInDrain = false
      ∧ (∀ x : Dest, (d x).rails[0].state = .draining ∧ (d x).rails[0].dest = x ∧ (d x).noStepOn 0
          ∧ (held (d x)).noStepOn 0 ∧ (held (d x)).railShed 0 = true ∧ (d x).railShed 0 = false
          ∧ (d x).notMetAtOnce 0)
      ∧ cleared.rails[0].clearedInDrain = true ∧ (cleared.railCfg 0).home.covers cleared.sys = false
      ∧ (home.railCfg 0).home.covers home.sys = true ∧ home.run = none ∧ home.railShed 0 = false
      ∧ home.notMetAtOnce 0 ∧ home.noStepOn 0 ∧ (held home).railShed 0 = true
      ∧ u.run = some (at1 .boardUp (.railOff 0)) ∧ u.waitsNext (at1 .boardUp (.railOff 0)) 10
      ∧ (u.stepOf .boardUp 1).onMiss = .goOn ∧ inputRail 3 = 0 ∧ (d .off).scan.pointer = 3
      ∧ ((d .off).railCfg 0).used = true ∧ ((d .off).railCfg 0).monitor ≠ .pg
      ∧ (2 : Code).toNat * ((d .off).railCfg 0).fullscaleMV / 4096 ≤ ((d .off).railCfg 0).drainMV
      ∧ State.reset.rails[0].state ≠ .retryWait ∧ w.rails[0].state = .retryWait ∧ w.railShed 0 = false
      ∧ w.notMetAtOnce 0 ∧ (held w).rails[0].state = .retryWait ∧ (held w).railShed 0 = true
      ∧ (held w).noStepOn 0 := by
  unfold State.noStepOn State.waitsNext State.notMetAtOnce
  refine ⟨by decide +kernel, by decide +kernel, fun x => ?_, by decide +kernel⟩
  cases x <;> decide +kernel

/-- A RAIL_OFF step that waits on a draining rail, passed over and failing into a tail, and a RAIL_ON step that waits on
it, towards each destination, and in the retry wait. -/
theorem witness_DrainsAndRetriesEnd_steps :
    let c0 := withCfg (up .boardOn .boardOn) 0 fun c => { c with used := true, monitor := .window, tier := 1 }
    let d (x : Dest) : State :=
      { c0 with rails := c0.rails.set 0 { c0.rails[0] with state := .draining, dest := x } }
    let on (s : State) : State := railStep s .railOn (.railOn 0)
    let off (s : State) : State := railStep s .railOff (.railOff 0)
    let held (s : State) : State := { s with tiers := s.tiers.set 0 ⟨⟨false, false, true, false⟩, 1⟩ }
    let run := at1 .boardUp (.railOff 0)
    let fails : PlanCfg :=
      { waitPlan with tailIndex := 2, steps := waitPlan.steps.set 0 { blankStep with kind := .railOff, onMiss := .fail } }
    let t : State := { d .off with run := some run, tables.plans := tabs.plans.set 0 fails }
    (∀ x : Dest, (on (d x)).waitsOn (.railOn 0) (at1 .boardUp (.railOn 0)) 10
        ∧ (on (d x)).passesOver (at1 .boardUp (.railOn 0)) ∧ (off (d x)).waitsOn (.railOff 0) run 10
        ∧ (off (d x)).passesOver run ∧ (on (d x)).rails[0].dest = x ∧ (on (d x)).rails[0].state = .draining)
      ∧ (on (d .off)).railShed 0 = false ∧ (on (d .off)).notMetAtOnce 0 ∧ (on (held (d .ramp))).railShed 0 = true
      ∧ (on (held (d .shed))).waitsOn (.railOn 0) (at1 .boardUp (.railOn 0)) 10
      ∧ (on (held (withRail c0 0 .retryWait))).waitsOn (.railOn 0) (at1 .boardUp (.railOn 0)) 10
      ∧ (on (held (withRail c0 0 .retryWait))).rails[0].state = .retryWait
      ∧ t.run = some run ∧ run.inTail = false ∧ ¬ t.passesOver run ∧ t.tailOpensWithWait run 10
      ∧ t.rails[0].clearedInDrain = false := by
  unfold State.waitsOn State.waitsNext State.passesOver State.notMetAtOnce State.tailOpensWithWait
  refine ⟨fun x => ?_, by decide +kernel⟩
  cases x <;> decide +kernel

/-! #### Plans -/

/-- `s` at its last step, a WAIT of plan `p`. -/
def lastWait (s : State) (p : PlanId) : State := { s with run := some { at1 p (.time 9) with current := 2 } }

/-- A WAIT, an AWAIT_LOCK passed over, one that fails a plan with a tail, and one that fails PANEL_UP without; the end
of BOARD_UP's tail. -/
theorem witness_StepsEndAndPlansWithThem :
    let s : State := { up .standby .boardOn with run := some (at1 .boardUp (.time 9)) }
    let l := railStep (up .standby .boardOn) .awaitLock (.lock 9)
    let p := at1 .panelUp (.lock 9)
    let miss (n : Fin 17) : PlanCfg :=
      { waitPlan with tailIndex := n, steps := waitPlan.steps.set 0 ⟨.awaitLock, 0, 10, .fail, 0⟩ }
    let f (n : Fin 17) : State := { up .boardOn .panelOn with run := some p, tables.plans := tabs.plans.set 1 (miss n) }
    let t : Run := { at1 .boardUp (.time 9) with inTail := true, current := 2, tailOutcome := .failed }
    let e : State := { up .standby .boardOn with run := some t }
    (∀ d, State.reset.waitOf ≠ .time d) ∧ (∀ d, State.reset.waitOf ≠ .lock d)
      ∧ (∀ d, State.reset.waitOf ≠ .handshake d)
      ∧ s.run = some (at1 .boardUp (.time 9)) ∧ s.waitsNext (at1 .boardUp (.time 9)) 10
      ∧ l.waitsNext (at1 .boardUp (.lock 9)) 10 ∧ (l.stepOf .boardUp 1).onMiss = .goOn
      ∧ (f 0).run = some p ∧ ((f 0).cfg.plan .panelUp).tailIndex = 0
      ∧ ((f 0).stepOf .panelUp p.current).onMiss = .fail ∧ (f 0).sys = .boardOn ∧ (f 0).target = .panelOn
      ∧ (f 0).reqs = PendingSet.none ∧ (f 2).run = some p ∧ (f 2).tailOpensWithWait p 10
      ∧ ((f 2).stepOf .panelUp p.current).onMiss = .fail ∧ PlanId.panelUp.isSnap = false
      ∧ e.run = some t ∧ (e.cfg.plan .boardUp).stepCount ≤ t.current ∧ e.sys = .standby ∧ e.target ≠ .standby
      ∧ e.reqs = PendingSet.none :=
  ⟨fun _ => nofun, fun _ => nofun, fun _ => nofun, by unfold State.waitsNext State.tailOpensWithWait; decide +kernel⟩

/-- BOARD_UP in the first of three steps, a WAIT; then `c`, then a WAIT, which is the tail if `tail` is 3. -/
def before (s : State) (c : StepRec) (tail : Fin 17) : State :=
  let wait : StepRec := { blankStep with value := 10 }
  let p : PlanCfg :=
    { blankPlan with
      stepCount := 3, tailIndex := tail, steps := ((blankPlan.steps.set 0 wait).set 1 c).set 2 wait }
  { s with run := some (at1 .boardUp (.time 9)), tables.plans := s.tables.plans.set 0 p }

/-- Each kind of step as the next one: it is told apart, and a WAIT is behind it; a miss passed over, and one that fails
into a tail. -/
theorem witness_StepsEndAndPlansWithThem_begins :
    let s := up .boardOn .boardOn
    let next : Run := { at1 .boardUp (.time 9) with current := 2, stepsDone := 1 }
    let step (k : StepKind) (t v : Nat) : StepRec := { kind := k, target := t, value := v, onMiss := .goOn, weightMW := 0 }
    let fails := before s { step .railOn 11 0 with onMiss := .fail } 3
    (∀ c ∈ [step .wait 0 0, step .line 0 1, step .line 7 0, step .awaitLock 0 1, step .awaitLock 0 65535,
          step .handshake 0 20, step .railOn 0 0, step .railOn 11 0, step .railOff 0 0, step .railOff 11 0],
        (before s c 0).run = some (at1 .boardUp (.time 9)) ∧ (before s c 0).stepOf .boardUp 2 = c
          ∧ 1 < ((before s c 0).cfg.plan .boardUp).bodyLast ∧ (before s c 0).waitsNext next 10
          ∧ (before s c 0).passesOver next)
      ∧ LineId.blEn.idx.val = 0 ∧ LineId.gpoB.idx.val = 7 ∧ s.lockLevel = false
      ∧ { s with lockLevel := true }.lockLevel = true ∧ s.sys ≠ .standby ∧ s.sys ≠ .lockout
      ∧ (up .standby .standby).sys = .standby ∧ (up .lockout .standby).sys = .lockout
      ∧ ¬ fails.passesOver next ∧ fails.tailOpensWithWait next 10 ∧ 1 < (fails.cfg.plan .boardUp).bodyLast := by
  unfold State.waitsNext State.passesOver State.tailOpensWithWait
  decide +kernel

/-- The rail of a RAIL_ON or a RAIL_OFF step: unused; used, in each state; OFF with its tier shed or not, and with its
monitor met at once; running with pg level HIGH and LOW. -/
theorem witness_StepsEndAndPlansWithThem_rails :
    let s := withCfg (up .boardOn .boardOn) 11 fun c => { c with used := true, tier := 1 }
    let held : State := { s with tiers := s.tiers.set 0 ⟨⟨false, false, true, false⟩, 1⟩ }
    let high (s : State) : State := withRt s fun x => { x with pgLevel := .high }
    ((up .boardOn .boardOn).railCfg 11).used = false ∧ (s.railCfg 11).used = true
      ∧ (∀ x : RailState, (withRail s 11 x).rails[11].state = x)
      ∧ s.rails[11].state = .off ∧ held.railShed 11 = true ∧ s.railShed 11 = false ∧ s.notMetAtOnce 11
      ∧ (s.railCfg 11).monitor = .pg ∧ (high s).rails[11].pgLevel = .high ∧ s.rails[11].pgLevel = .low
      ∧ (withRail s 11 .on).rails[11].winDetector = false ∧ (withRail s 11 .on).rails[11].pgDetector = false := by
  unfold State.notMetAtOnce
  refine ⟨by decide +kernel, by decide +kernel, fun x => ?_, by decide +kernel⟩
  cases x <;> rfl

/-- The last WAIT of each plan: BOARD_UP; PANEL_UP with PANEL_CARE pending; PANEL_DOWN; BOARD_DOWN with the shutdown
record open and closed; PANEL_SNAP alone and with BOARD_SNAP pending; BOARD_SNAP with and without a lockout latch; the
service plans. -/
theorem witness_StepsEndAndPlansWithThem_ends :
    let bu := lastWait (up .standby .boardOn) .boardUp
    let pu : State :=
      { lastWait (up .boardOn .panelOn) .panelUp with
        lockLevel := true, reqs := { PendingSet.none with panelCare := some .hostRequest } }
    let down (p : PlanId) : State := lastWait (up .panelOn .boardOn) p
    let bd (o : Bool) : State := { lastWait (up .boardOn .standby) .boardDown with shutdown.isOpen := o }
    let ps (x : SysState) : State :=
      { lastWait (up x .standby) .panelSnap with reqs := { PendingSet.none with boardSnap := some .keyHold } }
    let bs := lastWait (up .boardOn .standby) .boardSnap
    let svc (x : SysState) (g : Target) (p : PlanId) : State := { lastWait (up x g) p with lockLevel := true }
    bu.run = some { at1 .boardUp (.time 9) with current := 2 } ∧ (∀ p ∈ allPlans, (bu.cfg.plan p).bodyLast ≤ 2)
      ∧ bu.keyHold = .idle ∧ bu.sys = .standby ∧ bu.target = .boardOn ∧ bu.reqs = PendingSet.none
      ∧ bu.pins.wake[wakeIdx .key] = false ∧ bu.dipSeen = false
      ∧ pu.sys = .boardOn ∧ pu.target = .panelOn ∧ pu.keyHold = .idle
      ∧ pu.pins.wake[wakeIdx .key] = false ∧ pu.dipSeen = false ∧ pu.sup = .inactive ∧ pu.lockLevel = true
      ∧ (∀ p ∈ [PlanId.panelDown, .panelSnap], (down p).sys = .panelOn ∧ (down p).target = .boardOn
          ∧ (down p).reqs = PendingSet.none ∧ (down p).dipSeen = false)
      ∧ (∀ o : Bool, (bd o).sys = .boardOn ∧ (bd o).target = .standby ∧ (bd o).reqs = PendingSet.none
          ∧ (bd o).shutdown.isOpen = o)
      ∧ (∀ x ∈ [SysState.panelOn, .standby, .boardOn, .lockout], (ps x).sys = x
          ∧ (ps x).target = .standby ∧ (ps x).reqs = { PendingSet.none with boardSnap := some .keyHold }
          ∧ (ps x).sup = .inactive ∧ (ps x).dipSeen = false ∧ (ps x).opensWithWait .boardSnap 10)
      ∧ bs.sys = .boardOn ∧ bs.target = .standby ∧ bs.reqs = PendingSet.none ∧ bs.ride.state ≠ .committed
      ∧ (latched bs 3).faults[3].isLockout = true ∧ (∀ i : Fin 15, bs.faults[i].isLockout = false)
      ∧ PlanId.panelCare.isService = true ∧ PlanId.user.isService = true
      ∧ (svc .standby .standby .panelCare).dipSeen = false ∧ (svc .boardOn .boardOn .user).sys = .boardOn
      ∧ (svc .panelOn .panelOn .user).sys = .panelOn ∧ (svc .panelOn .panelOn .user).sup = .inactive := by
  unfold State.opensWithWait
  decide +kernel

/-- PANEL_DOWN and BOARD_DOWN with no tail at a failing AWAIT_LOCK, the snap plans opening with a WAIT. -/
theorem witness_StepsEndAndPlansWithThem_failed :
    let miss : PlanCfg := { waitPlan with steps := waitPlan.steps.set 0 ⟨.awaitLock, 0, 10, .fail, 0⟩ }
    let f (x : SysState) (p : PlanId) : State :=
      { up x .standby with run := some (at1 p (.lock 9)), tables.plans := (tabs.plans.set 2 miss).set 3 miss }
    (f .panelOn .panelDown).run = some (at1 .panelDown (.lock 9)) ∧ (f .panelOn .panelDown).sys = .panelOn
      ∧ ((f .panelOn .panelDown).cfg.plan .panelDown).tailIndex = 0
      ∧ ((f .panelOn .panelDown).stepOf .panelDown 1).onMiss = .fail
      ∧ (f .panelOn .panelDown).reqs = PendingSet.none
      ∧ ({ f .panelOn .panelDown with run := none } : State).snapReady 10
      ∧ (f .boardOn .boardDown).run = some (at1 .boardDown (.lock 9)) ∧ (f .boardOn .boardDown).sys = .boardOn
      ∧ ((f .boardOn .boardDown).cfg.plan .boardDown).tailIndex = 0
      ∧ ((f .boardOn .boardDown).stepOf .boardDown 1).onMiss = .fail
      ∧ ({ f .boardOn .boardDown with run := none } : State).snapReady 10 := by
  unfold State.snapReady State.opensWithWait
  decide +kernel

/-! #### Control lines and supervision -/

theorem witness_LockIsQualifiedAndSupervised :
    let s : State := { active (up .panelOn .panelOn) srcLockLoss with lockTimer := some 9 }
    let hi : State := { s with pins.lock := true }
    let l : State := { railStep (up .standby .boardOn) .awaitLock (.lock 9) with lockTimer := some 9, pins.lock := true }
    (∀ d, s.waitOf ≠ .lock d) ∧ (∀ d, s.sup ≠ .grace d) ∧ l.waitsNext (at1 .boardUp (.lock 9)) 10
      ∧ s.opensWithWait .panelDown 10
      ∧ true ≠ State.reset.pins.lock ∧ State.reset.lockTimer = none ∧ s.lockTimer ≠ none ∧ s.sup = .inactive
      ∧ l.run = some (at1 .boardUp (.lock 9)) ∧ l.pins.lock = true ∧ l.sup = .inactive ∧ s.pins.lock = false
      ∧ { s with sup := .watching }.sup = .watching ∧ hi.pins.lock = true ∧ { hi with sup := .grace 7 }.sup = .grace 7
      ∧ hi.faults[srcLockLoss].state = .active ∧ hi.faults[srcLockLoss].firstCause ≠ .none
      ∧ (up .panelOn .boardOn).target = .boardOn ∧ s.sys = .panelOn ∧ s.target = .panelOn ∧ s.run = none
      ∧ s.reqs = PendingSet.none ∧ s.dipSeen = false := by
  refine ⟨fun _ => nofun, fun _ => nofun, ?_⟩
  unfold State.waitsNext State.opensWithWait
  decide +kernel

/-- The force of each priority with the ones above it absent. -/
theorem witness_LinesFollowTheirPriority :
    let s : State := { up .panelOn .panelOn with tables.lines := tabs.lines.set 0 ⟨.low, true, .high⟩ }
    let dark : State := { s with sup := .grace 7 }
    let shed : State :=
      { s with
        tiers := s.tiers.set 3 ⟨⟨false, false, false, true⟩, 1⟩
        tables.tiers := tabs.tiers.set 3 ((tabs.tiers[3]).set 7 ⟨true, .high⟩) }
    { s with pulse := .active 9 }.driven .sysRstN = .low ∧ dark.driven .blEn = .high ∧ shed.driven .gpoB = .high
      ∧ s.driven .blEn = .low ∧ (∀ j : Fin 4, j < 3 → shed.tiers[j].holds = ⟨false, false, false, false⟩)
      ∧ ∀ d, s.pulse ≠ .active d :=
  ⟨by decide +kernel, by decide +kernel, by decide +kernel, by decide +kernel, by decide +kernel, fun _ => nofun⟩

/-! #### Scanner, budget, limits, faults -/

theorem witness_ScannerRunsItsPeriod :
    { State.reset with scan.timer := none }.scan.timer = none ∧ State.reset.scan.timer ≠ none
      ∧ State.reset.scan.conv = some .busVoltage ∧ State.reset.scan.conv ≠ some .busCurrent
      ∧ State.reset.scan.conv ≠ some .slow ∧ { State.reset with scan.conv := some .busCurrent }.scan.conv ≠ some .busVoltage
      ∧ { State.reset with scan.conv := some .slow }.scan.pointer = 2 ∧ 2 ≤ (2 : Fin 15).val ∧ 2 ≤ (14 : Fin 15).val
      ∧ { State.reset with scan.conv := some .slow, scan.pointer := 14 }.scan.pointer = 14 := by decide +kernel

/-- The largest codes with the lowest floor, and Vb at the floor. -/
theorem witness_BudgetEnergyAndPower :
    ({ busCap := 6500, floor := 500, pFloor := 100, guardMJ := 5000 } : BudgetCfg).ok = true ∧ 4095 > 500
      ∧ (evaluate ⟨6500, 500, 100, 5000⟩ 65535 4095 4095 65535).eAvail = 53686
      ∧ (evaluate ⟨6500, 500, 100, 5000⟩ 65535 500 0 65535).eAvail = 0
      ∧ (evaluate ⟨6500, 500, 100, 5000⟩ 65535 500 0 65535).pMeas < 100
      ∧ 100 ≤ (evaluate ⟨6500, 500, 100, 5000⟩ 65535 4095 4095 65535).pMeas := by decide +kernel

theorem witness_HeadroomAndReserve :
    ({ busCap := 6500, floor := 500, pFloor := 100, guardMJ := 5000 } : BudgetCfg).ok = true ∧ 65535 ≤ 65535
      ∧ (evaluate ⟨6500, 500, 100, 5000⟩ 65535 4095 4095 0).h ≤ 0
      ∧ 0 < (evaluate ⟨6500, 500, 100, 5000⟩ 0 4095 4095 0).h := by decide +kernel

/-- Codes 3104 and 3103 are 85.0 and 84.9 °C, 2979 and 2978 are 80.0 and 79.9 °C, at WARN's two edges; 3600 and 3599 are
105.0 and 104.9 °C, 3476 and 3475 are 100.0 and 99.9 °C, at HOT's. -/
theorem witness_HeatAndCurrentPlaceHolds :
    let s : State := { up .boardOn .boardOn with scan.conv := some .slow }
    let w (x : ThermalState) : State :=
      { s with thermal := ⟨x, some 0⟩, tiers := s.tiers.set 0 ⟨⟨false, false, true, false⟩, 1⟩ }
    let t (n : Nat) : Int := ((n * 1650 / 4096 : Nat) : Int) - 400
    s.scan.pointer = 2 ∧ s.membersAside 0 ∧ s.thermal.state = .cool ∧ s.cfg.thermal.tier = 0
      ∧ s.tiers[0].holds.heat = false ∧ s.snapReady 10 ∧ s.cfg.thermal.warn = 850 ∧ s.cfg.thermal.hyst = 50
      ∧ s.cfg.thermal.shutdown = 1050 ∧ t 3104 = 850 ∧ t 3103 = 849 ∧ t 2979 = 800 ∧ t 2978 = 799
      ∧ t 3600 = 1050 ∧ t 3599 = 1049 ∧ t 3476 = 1000 ∧ t 3475 = 999
      ∧ (w .warn).membersAside 0 ∧ (w .warn).thermal = ⟨.warn, some 0⟩ ∧ (w .warn).tiers[0].holds.heat = true
      ∧ (w .warn).snapReady 10 ∧ (w .hot).membersAside 0 ∧ (w .hot).thermal = ⟨.hot, some 0⟩ ∧ (w .hot).retArmed = false
      ∧ ({ w .hot with thermal.state := .cool } : State).run = none
      ∧ ({ w .hot with thermal.state := .cool } : State).reqs = PendingSet.none
      ∧ ({ w .hot with thermal.state := .cool } : State).startable = none := by
  unfold State.membersAside State.snapReady State.opensWithWait
  decide +kernel

/-- soft_code 3,000, hard_code 3,500 and release_code 2,900 with N = 1 and N = 2, count_M 2: each mode's soft event, the
episode of LEVEL, COUNT and REPORT, a latched one, the hard event and its end. -/
theorem witness_HeatAndCurrentPlaceHolds_limit :
    let b (m : LimitMode) (n : Nat) (x : LimitState) (k : Option (Fin 4)) : State :=
      { up .standby .standby with
        scan.conv := some .busCurrent, scan.vb := some 2400
        limit := { State.reset.limit with state := x, holdTier := k, softPresent := decide (x ≠ .watch) }
        tiers := State.reset.tiers.set 0 ⟨⟨false, k.isSome, false, false⟩, 1⟩
        tables.limit := { softCode := 3000, hardCode := 3500, samples := n, tier := 0, mode := m, releaseCode := 2900,
                          countM := 2 } }
    let w := b .level 1 .watch none
    let l := b .level 1 .limiting (some 0)
    (∀ m : LimitMode, m = .level ∨ m = .count ∨ m = .latch ∨ m = .report →
        (b m 1 .watch none).cfg.limit.mode = m ∧ m ≠ .off)
      ∧ w.membersAside 0 ∧ w.scan.vb ≠ none ∧ w.sys = .standby ∧ w.run = none ∧ w.ride.state = .normal
      ∧ w.limit.state = .watch ∧ w.limit.softCount = 0 ∧ w.limit.hardPresent = false ∧ w.cfg.limit.tier = 0
      ∧ w.tiers[0].holds.limit = false ∧ w.cfg.limit.samples ≤ w.limit.softCount + 1
      ∧ (b .level 2 .watch none).limit.softCount + 1 < (b .level 2 .watch none).cfg.limit.samples
      ∧ l.limit.state = .limiting ∧ l.limit.countMode = false ∧ l.limit.holdTier = some 0
      ∧ l.tiers[0].holds.limit = true ∧ l.membersAside 0 ∧ l.cfg.limit.samples ≤ l.limit.releaseCount + 1
      ∧ (b .level 2 .limiting (some 0)).limit.releaseCount + 1 < (b .level 2 .limiting (some 0)).cfg.limit.samples
      ∧ { b .count 1 .limiting (some 0) with limit.countMode := true }.limit.releaseCount + 1
          < (b .count 1 .limiting (some 0)).cfg.limit.countM
      ∧ (b .report 1 .noted none).limit.state = .noted ∧ (b .report 1 .noted none).limit.holdTier = none
      ∧ (b .latch 1 .latched (some 0)).limit.softPresent = true
      ∧ { b .latch 1 .latched (some 0) with limit.softPresent := false }.limit.softPresent = false
      ∧ l.limit.hardCount < l.cfg.limit.samples ∧ l.cfg.limit.samples ≤ l.limit.hardCount + 1
      ∧ l.reqs = PendingSet.none ∧ l.sup = .inactive ∧ l.opensWithWait .panelSnap 10
      ∧ { l with limit.hardCount := 1 }.cfg.limit.samples ≤ { l with limit.hardCount := 1 }.limit.hardCount
      ∧ { l with limit.hardPresent := true }.limit.hardPresent = true := by
  unfold State.membersAside State.opensWithWait
  refine ⟨?_, by decide +kernel⟩
  rintro m (rfl | rfl | rfl | rfl) <;> decide +kernel

theorem witness_FaultRecordsFollowTheTable :
    FaultCause.overvolt ≠ .none ∧ (latched State.reset 3).faults[3].state = .latched
      ∧ (active State.reset 3).faults[3].state = .active ∧ State.reset.faults[3].state = .clear
      ∧ { State.reset.faults[3] with occurrences := 255, firstCause := .lockLost }.state = .sticky := by decide +kernel

end Sys2Proof.Tests
end

namespace Sys2Proof.Machine

/-! ### The end of an event -/

/-- An event that queued neither STATE nor POWER leaves its notices as they are. -/
theorem Ev.finish_clean (e : Ev) (h1 : e.stDirty = false) (h2 : e.pwDirty = false) : e.finish = e.toState := by
  simp [Ev.finish, Ev.finalNotices, h1, h2]

/-- An event that queued STATE shows in it what it leaves (R2). -/
theorem Ev.finish_stDirty (e : Ev) (h1 : e.stDirty = true) (h2 : e.pwDirty = false) :
    e.finish = { e.toState with notices := retake .state e.stateBody e.notices } := by
  simp [Ev.finish, Ev.finalNotices, h1, h2]

/-- An event that queued POWER shows in it what it leaves (R125). -/
theorem Ev.finish_pwDirty (e : Ev) (h1 : e.stDirty = false) (h2 : e.pwDirty = true) :
    e.finish = { e.toState with notices := retake .power e.powerBody e.notices } := by
  simp [Ev.finish, Ev.finalNotices, h1, h2]

/-- An event that does nothing leaves the state as it was. -/
@[simp] theorem Ev.finish_start (s : State) : (Ev.start s).finish = s := rfl

/-! ### The notice queue -/

/-- A notice taken afresh keeps its key. -/
theorem any_key_retake (k k' : NoticeKey) (b : NoticeBody) (q : List Notice) :
    (retake k b q).any (fun n => decide (n.key = k')) = q.any (fun n => decide (n.key = k')) := by
  induction q with
  | nil => rfl
  | cons n q ih =>
    simp only [retake, List.map_cons, List.any_cons] at *
    rw [ih]
    split <;> rfl

/-- Two notices of different keys are taken afresh in either order. -/
theorem retake_comm {k k' : NoticeKey} (h : k ≠ k') (b b' : NoticeBody) (q : List Notice) :
    retake k b (retake k' b' q) = retake k' b' (retake k b q) := by
  simp only [retake, List.map_map]
  refine List.map_congr_left fun n _ => ?_
  simp only [Function.comp]
  by_cases h1 : n.key = k' <;> by_cases h2 : n.key = k <;> simp_all

/-- An event whose last notice was STATE: STATE stands in its place with what the event leaves (R2). -/
theorem Ev.finish_told (e : Ev) {q : List Notice} {b : NoticeBody} (h : e.notices = enqueue q .state b)
    (h1 : e.stDirty = true) (h2 : e.pwDirty = false) :
    e.finish = { e.toState with notices := enqueue q .state e.stateBody } := by
  rw [Ev.finish_stDirty e h1 h2, h, retake_enqueue]

/-- An event whose last notice was POWER: POWER stands in its place with what the event leaves (R125). -/
theorem Ev.finish_powerTold (e : Ev) {q : List Notice} {b : NoticeBody} (h : e.notices = enqueue q .power b)
    (h1 : e.stDirty = false) (h2 : e.pwDirty = true) :
    e.finish = { e.toState with notices := enqueue q .power e.powerBody } := by
  rw [Ev.finish_pwDirty e h1 h2, h, retake_enqueue]

/-- A notice of another key, queued later, leaves the place of a notice taken afresh. -/
theorem retake_enqueue_ne {k k' : NoticeKey} (h : k ≠ k') (b b' : NoticeBody) (q : List Notice) :
    retake k b (enqueue q k' b') = enqueue (retake k b q) k' b' := by
  unfold enqueue
  rw [any_key_retake]
  split
  · exact retake_comm h b b' q
  · simp [retake, h.symm]

/-- A notice queued again takes its place's last content. -/
theorem enqueue_enqueue (q : List Notice) (k : NoticeKey) (b b' : NoticeBody) :
    enqueue (enqueue q k b) k b' = enqueue q k b' := by
  have h : (enqueue q k b).any (fun n => decide (n.key = k)) = true := by
    unfold enqueue
    split
    · rwa [any_key_retake]
    · simp
  calc enqueue (enqueue q k b) k b' = retake k b' (enqueue q k b) := if_pos h
    _ = enqueue q k b' := retake_enqueue q k b' b

/-- Withdrawing a notice of another key and queueing one do not disturb each other (R168). -/
theorem filter_enqueue {k k' : NoticeKey} (h : k ≠ k') (b : NoticeBody) (q : List Notice) :
    (enqueue q k b).filter (fun n => decide (n.key ≠ k')) = enqueue (q.filter fun n => decide (n.key ≠ k')) k b := by
  have hany : (q.filter fun n => decide (n.key ≠ k')).any (fun n => decide (n.key = k))
      = q.any fun n => decide (n.key = k) := by
    rw [List.any_filter]
    congr 1
    funext n
    by_cases hn : n.key = k <;> simp [hn, h]
  unfold enqueue
  rw [hany]
  split
  · simp only [retake, List.filter_map]
    congr 1
    refine List.filter_congr fun n _ => ?_
    simp only [Function.comp]
    split <;> rfl
  · simp [List.filter_append, h]

/-! ### Requests -/

/-- The end of an event leaves SUMMARY as it is. -/
theorem Ev.finish_summary (e : Ev) : e.finish.summary = e.summary := by
  have h : e.finalNotices.length = e.notices.length := by
    simpa using congrArg List.length (finalNotices_keys e)
  unfold State.summary
  rw [Ev.finish_notices, h]
  rfl

/-- What taking a request leaves: the state its owner leaves, with the reply in transmission (R163 to R165). -/
theorem Ev.take_finish (e : Ev) (f : Frame) :
    (e.take f).finish = (e.served f).ev.finish.replied f (e.served f).status (e.served f).body := by
  simp only [State.replied, Ev.finish_summary]
  rfl

/-- A request that finds the link ready is answered in its event. -/
theorem request_answered (k t : Byte) (b : List Byte) (s : State) (h : s.ready) :
    request k t b s = .next
      (((Ev.start s).served ⟨k, t, b⟩).ev.finish.replied ⟨k, t, b⟩ ((Ev.start s).served ⟨k, t, b⟩).status
        ((Ev.start s).served ⟨k, t, b⟩).body) := by
  rw [request_ready k t b s h, Ev.take_finish]

/-- Outside STARTING every request reaches its owner (R163). -/
theorem Ev.served_started (e : Ev) (f : Frame) (h : e.sys ≠ .starting) : e.served f = e.dispatch f := by
  simp [Ev.served, h]

end Sys2Proof.Machine

namespace Sys2Proof.Machine

/-! ### The engine's normal form -/

/-- The event with its state and the marked answer replaced, the other marks as they stand: the form in which the lemmas
about the engine give what an operation leaves. -/
def Ev.upd (e : Ev) (t : State) (a : Option Answer) : Ev := { e with toState := t, ans := a }

/-- The state with the run in hand replaced. -/
def State.withRun (s : State) (run : Option Run) : State := { s with run := run }

/-- The state of an event so replaced. -/
@[simp] theorem Ev.upd_toState (e : Ev) (t : State) (a : Option Answer) : (e.upd t a).toState = t := rfl

/-- The mark of an ended plan stands. -/
@[simp] theorem Ev.upd_planEnded (e : Ev) (t : State) (a : Option Answer) : (e.upd t a).planEnded = e.planEnded := rfl

/-! ### The engine: a step ends and the next one begins -/

/-- What is passed over does not stop the plan (R58). -/
theorem State.passesOver_iff (s : State) (run : Run) :
    s.passesOver run ↔ (s.stepOf run.plan run.current).stops run.plan = false := by
  unfold State.passesOver StepRec.stops
  cases h : (s.stepOf run.plan run.current).onMiss <;> simp

/-- A step that is a WAIT of `ms` ms, `ms` not 0, waits for its time (R54). -/
theorem Ev.beginStep_wait (e : Ev) {run : Run} {ms : Nat} (hr : e.run = some run)
    (hk : (e.stepOf run.plan run.current).kind = .wait) (hv : (e.stepOf run.plan run.current).value = ms)
    (hms : 0 < ms) :
    e.beginStep = e.upd (e.withRun (some { run with wait := .time (e.now + 1000 * ms) })) e.ans := by
  simp only [Ev.beginStep, hr, hk, hv, Nat.ne_of_gt hms, if_false, Ev.setWait]
  rfl

/-- Answer `a` lets the plan go on, and leaves `note` as the run's last exception, if it is not NONE (R52, R58). -/
def State.goesOnWith (s : State) (run : Run) (a : Answer) (note : Cause) : Prop :=
  match a with
  | .completed c => c = note ∧ (c = .drainLate → s.passesOver run)
  | .missed c => c = note ∧ c ≠ .none ∧ s.passesOver run

/-- The state with the last exception of run `run` set, if `note` is not NONE (R58). -/
def State.excepted (s : State) (run : Run) (note : Cause) : State :=
  { s with
    plans :=
      if note = .none then s.plans
      else s.plans.set run.plan.idx { s.plans[run.plan.idx] with excStep := run.current, excCause := note } }

/-- With a note or a cause the last exception is set (R58). -/
theorem Ev.setException_eq (e : Ev) (run : Run) {note : Cause} (h : note ≠ .none) :
    e.setException run.plan run.current note = e.upd (e.excepted run note) e.ans := by
  simp only [Ev.setException, Ev.setPlan, State.excepted, if_neg h]
  rfl

/-- An answer that lets the plan go on. -/
theorem Ev.actOnAnswer_goesOn (e : Ev) (run : Run) {a : Answer} {note : Cause} (h : e.goesOnWith run a note) :
    e.actOnAnswer run a = (e.upd (e.excepted run note) e.ans).goOn run := by
  have hnone : e.upd (e.excepted run .none) e.ans = e := rfl
  cases a with
  | completed c =>
    obtain ⟨rfl, hd⟩ := h
    by_cases hc : c = .none
    · simp only [Ev.actOnAnswer, hc, if_true, hnone]
    · have hs : ¬ (c = .drainLate ∧ (e.stepOf run.plan run.current).stops run.plan = true) := by
        rintro ⟨hl, hs⟩
        simp [(e.passesOver_iff run).1 (hd hl)] at hs
      simp only [Ev.actOnAnswer, if_neg hc, if_neg hs, Ev.setException_eq e run hc]
  | missed c =>
    obtain ⟨rfl, hc, hp⟩ := h
    simp [Ev.actOnAnswer, (e.passesOver_iff run).1 hp, Ev.setException_eq e run hc]

/-- The run with the step in flight counted and ended (R50, R60). -/
def Run.counted (run : Run) : Run := { run with stepsDone := run.stepsDone + 1, wait := .nothing }

/-- One marked answer is taken, and then what is marked after it (R50). -/
theorem Ev.runSteps_answered (n : Nat) (e : Ev) {run : Run} {a : Answer} (hr : e.run = some run) (ha : e.ans = some a) :
    Ev.runSteps (n + 1) e
      = Ev.runSteps n ((e.upd (e.withRun (some run.counted)) none).actOnAnswer run.counted a) := by
  simp only [Ev.runSteps, ha, hr, Option.isSome_some, Bool.and_self, if_true, Ev.serveAnswer]
  rfl

/-- Before the body's last step the engine goes on to the next one (R50). -/
theorem Ev.goOn_next (e : Ev) (run : Run) (ht : run.inTail = false)
    (hl : run.current < (e.cfg.plan run.plan).bodyLast) :
    e.goOn run = (e.upd (e.withRun (some { run with current := run.current + 1 })) e.ans).beginStep := by
  rw [Ev.goOn, if_neg (by simp [ht]), if_neg (Nat.not_le.2 hl)]
  rfl

/-- An answer that lets the plan go on before the body's last step: the next step begins (R50). -/
theorem Ev.runSteps_next (n : Nat) (e : Ev) {run : Run} {a : Answer} {note : Cause} (hr : e.run = some run)
    (ha : e.ans = some a) (hg : e.goesOnWith run a note) (ht : run.inTail = false)
    (hl : run.current < (e.cfg.plan run.plan).bodyLast) :
    Ev.runSteps (n + 1) e
      = Ev.runSteps n (e.upd ((e.excepted run note).withRun
          (some { run.counted with current := run.current + 1 })) none).beginStep := by
  have hg' : (e.withRun (some run.counted)).goesOnWith run.counted a note := hg
  rw [Ev.runSteps_answered n e hr ha, Ev.actOnAnswer_goesOn (e.upd (e.withRun (some run.counted)) none) _ hg']
  exact congrArg (Ev.runSteps n)
    (Ev.goOn_next (e.upd ((e.excepted run note).withRun (some run.counted)) none) run.counted ht hl)

/-- An answer that lets the plan go on to a WAIT: the event leaves that WAIT in flight (R50, R54). -/
theorem Ev.runSteps_passed (n : Nat) (e : Ev) {run : Run} {a : Answer} {note : Cause} {ms : Nat} (hr : e.run = some run)
    (ha : e.ans = some a) (hg : e.goesOnWith run a note) (hw : e.waitsNext run ms) :
    Ev.runSteps (n + 1) e = e.upd (e.passed run ms note) none := by
  obtain ⟨ht, hl, hk, hv, hms⟩ := hw
  rw [Ev.runSteps_next n e hr ha hg ht hl]
  have hb := Ev.beginStep_wait (e.upd ((e.excepted run note).withRun
    (some { run.counted with current := run.current + 1 })) none) rfl hk hv hms
  rw [hb, Ev.runSteps_quiet _ _ rfl]
  rfl

/-- Where serving the steps leaves nothing else marked, the event is settled with them. -/
theorem Ev.settle_of_runSteps (e e' : Ev) (h : Ev.runSteps stepFuel e = e') (ht : e'.tgtChanged = false)
    (harb : e'.arb = false) (hact : e'.act = none) : e.settle = e' := by
  simp only [Ev.settle, Ev.serve, h, ht, harb, Bool.false_eq_true, if_false, Ev.applyAct, hact]

/-- A step in flight ends with nothing else marked, and the plan goes on to a WAIT. -/
theorem Ev.settle_passed (e : Ev) {run : Run} {a : Answer} {note : Cause} {ms : Nat} (hr : e.run = some run)
    (ha : e.ans = some a) (hg : e.goesOnWith run a note) (hw : e.waitsNext run ms) (ht : e.tgtChanged = false)
    (harb : e.arb = false) (hact : e.act = none) : e.settle = e.upd (e.passed run ms note) none :=
  e.settle_of_runSteps _ (Ev.runSteps_passed 39 e hr ha hg hw) ht harb hact

/-! ### The engine: a tail begins, a plan ends -/

/-- A tail that opens with a WAIT waits for it (R59, R66). -/
theorem Ev.enterTail_wait (e : Ev) (run : Run) (o : PlanOutcome) (c : Cause) {ms : Nat}
    (hw : e.tailOpensWithWait run ms) :
    e.enterTail run o c = e.upd (e.withRun (some (e.tailWaiting run o c ms))) e.ans := by
  obtain ⟨_, hk, hv, hms⟩ := hw
  exact Ev.beginStep_wait (e.upd (e.withRun (some { run with
    inTail := true, current := (e.cfg.plan run.plan).tailIndex, tailOutcome := o, tailStep := run.current,
    tailCause := c, wait := .nothing })) e.ans) rfl hk hv hms

/-- A FAIL miss in a body with a tail enters the tail (R59). -/
theorem Ev.actOnAnswer_tail (e : Ev) (run : Run) (c : Cause) (hs : ¬ e.passesOver run) (hi : run.inTail = false)
    (hn : (e.cfg.plan run.plan).tailIndex ≠ 0) : e.actOnAnswer run (.missed c) = e.enterTail run .failed c := by
  have hstop : (e.stepOf run.plan run.current).stops run.plan = true := by
    simpa [State.passesOver_iff] using hs
  simp only [Ev.actOnAnswer, hstop, if_true, Ev.failMiss, hi, Bool.false_eq_true, if_false, hn]

/-- A FAIL miss in a body without a tail ends the plan FAILED (R59). -/
theorem Ev.actOnAnswer_failed (e : Ev) (run : Run) (c : Cause) (hs : ¬ e.passesOver run) (hi : run.inTail = false)
    (hn : (e.cfg.plan run.plan).tailIndex = 0) :
    e.actOnAnswer run (.missed c) = e.endPlan run .failed run.current c := by
  have hstop : (e.stepOf run.plan run.current).stops run.plan = true := by
    simpa [State.passesOver_iff] using hs
  simp only [Ev.actOnAnswer, hstop, if_true, Ev.failMiss, hi, Bool.false_eq_true, if_false, hn]

/-- A FAIL miss begins the tail, here with a WAIT (R59). -/
theorem Ev.runSteps_tail (n : Nat) (e : Ev) {run : Run} {c : Cause} {ms : Nat} (hr : e.run = some run)
    (ha : e.ans = some (.missed c)) (hs : ¬ e.passesOver run) (hi : run.inTail = false)
    (hw : e.tailOpensWithWait run ms) :
    Ev.runSteps (n + 1) e
      = e.upd (e.withRun (some { e.tailWaiting run .failed c ms with stepsDone := run.stepsDone + 1 })) none := by
  rw [Ev.runSteps_answered _ e hr ha,
    Ev.actOnAnswer_tail (e.upd (e.withRun (some run.counted)) none) run.counted c hs hi hw.1,
    Ev.enterTail_wait (e.upd (e.withRun (some run.counted)) none) run.counted .failed c (ms := ms) hw,
    Ev.runSteps_quiet _ _ rfl]
  rfl

/-- A FAIL miss with nothing else marked begins the tail, here with a WAIT (R59). -/
theorem Ev.settle_tail (e : Ev) {run : Run} {c : Cause} {ms : Nat} (hr : e.run = some run)
    (ha : e.ans = some (.missed c)) (hs : ¬ e.passesOver run) (hi : run.inTail = false)
    (hw : e.tailOpensWithWait run ms) (ht : e.tgtChanged = false) (harb : e.arb = false) (hact : e.act = none) :
    e.settle = e.upd (e.withRun (some { e.tailWaiting run .failed c ms with stepsDone := run.stepsDone + 1 })) none :=
  e.settle_of_runSteps _ (Ev.runSteps_tail 39 e hr ha hs hi hw) ht harb hact

/-- The end of a plan leaves its record, PLAN_DONE and an idle engine, then what the other blocks do with it, and the
arbiter's run is due (R60). -/
theorem Ev.endPlan_eq (e : Ev) (run : Run) (o : PlanOutcome) (n : Nat) (c : Cause) :
    e.endPlan run o n c
      = { ((e.upd (e.toState.planEnded run.plan o n c) none).stateOnEnd run.plan o).rideOnPlanEnd run.plan o
            run.stepsDone with
          planEnded := true, arb := true } := by
  have hm : (e.setPlan run.plan fun x => { x with
      lastOutcome := o, outcomeStep := n, outcomeCause := c }).plans[run.plan.idx].merged
        = e.plans[run.plan.idx].merged := by
    simp
  simp only [Ev.endPlan, hm]
  rfl

/-! ### The engine: a plan starts -/

/-- The state with plan `p` started, waiting out its first step, a WAIT of `ms` ms (R49). -/
def State.planBegun (s : State) (p : PlanId) (ms : Nat) : State :=
  { s with
    run := some (s.firstWait p ((s.reqs.get p).getD .planned) ms)
    plans := s.plans.set p.idx s.plans[p.idx].atStart
    reqs := s.reqs.put p none
    sup := .inactive
    watch := if s.sup = .watching then .stopped (s.countedUs s.watch) else s.watch
    pulse := if p.isSnap then .idle else s.pulse }

/-- A dip is judged only in NORMAL, and only where one is seen (R115). -/
theorem Ev.judgeDip_none (e : Ev) (h : e.dipSeen = false ∨ e.ride.state ≠ .normal) : e.judgeDip = e := by
  unfold Ev.judgeDip
  rw [if_neg]
  rintro ⟨h1, _, h2⟩
  obtain h | h := h
  · simp [h] at h2
  · exact h h1

/-- Ride-through is not armed: no dip is judged (R114, R115). -/
theorem Ev.judgeDip_unarmed (e : Ev) (h : e.rideArmed = false) : e.judgeDip = e := by
  simp [Ev.judgeDip, h]

/-- Where no dark hold stands the start of a plan stops the time in WATCHING, and no more (R85). -/
theorem Ev.endSupervision_undark (e : Ev) (h : e.sup = .inactive ∨ e.sup = .watching) :
    e.endSupervision = e.upd { e.toState with
      sup := .inactive
      watch := if e.sup = .watching then .stopped (e.countedUs e.watch) else e.watch } e.ans := by
  obtain h | h := h
  · simp only [Ev.endSupervision, h, reduceCtorEq, if_false]
    rw [← h]
    rfl
  · simp only [Ev.endSupervision, h, if_true]
    rfl

/-- The state right after the first actions of a plan's start, up to the run of step 1 (R49). -/
def State.planSet (s : State) (p : PlanId) : State :=
  { s with
    plans := s.plans.set p.idx s.plans[p.idx].atStart
    reqs := s.reqs.put p none
    run := some { s.firstWait p ((s.reqs.get p).getD .planned) 0 with wait := .nothing } }

/-- A plan that has steps begins with step 1, once supervision has ended and the dip is judged (R49). -/
theorem Ev.startPlan_steps (e : Ev) (p : PlanId) {e2 e3 : Ev} (h2 : (e.upd (e.planSet p) none).endSupervision = e2)
    (h3 : (e2.upd { e2.toState with pulse := if p.isSnap then .idle else e2.pulse } e2.ans).judgeDip = e3)
    (hb : (e3.cfg.plan p).bodyLast ≠ 0) : e.startPlan p = e3.beginStep := by
  subst h2 h3
  cases p <;> exact if_neg hb

/-- The start of a plan where no dark hold stands and no dip is seen, up to the WAIT of its first step. -/
theorem Ev.startPlan_wait (e : Ev) (p : PlanId) {ms : Nat} (hs : e.sup = .inactive ∨ e.sup = .watching)
    (hd : e.dipSeen = false ∨ e.ride.state ≠ .normal) (hw : e.opensWithWait p ms) :
    e.startPlan p = e.upd (e.planBegun p ms) none := by
  obtain ⟨hb, hk, hv, hms⟩ := hw
  let s1 : State := { e.planSet p with
    sup := .inactive
    watch := if e.sup = .watching then .stopped (e.countedUs e.watch) else e.watch
    pulse := if p.isSnap then .idle else e.pulse }
  have h2 := Ev.endSupervision_undark (e.upd (e.planSet p) none) hs
  have h3 : (e.upd s1 none).judgeDip = e.upd s1 none := Ev.judgeDip_none _ hd
  rw [Ev.startPlan_steps e p h2 h3 hb]
  exact Ev.beginStep_wait (e.upd s1 none) rfl hk hv hms

/-! ### The engine: the arbiter -/

/-- A plan that the arbiter picks starts, up to the WAIT of its first step (R61). -/
theorem Ev.runArbiter_starts (n : Nat) (e : Ev) (p : PlanId) {ms : Nat} (hr : e.run = none)
    (hc : e.choose = (e, some p)) (hs : e.sup = .inactive ∨ e.sup = .watching)
    (hd : e.dipSeen = false ∨ e.ride.state ≠ .normal) (hw : e.opensWithWait p ms) :
    Ev.runArbiter (n + 1) e = e.upd (e.planBegun p ms) none := by
  have hi : e.engineIdle = true := by simp [State.engineIdle, hr]
  have hb : (e.upd (e.planBegun p ms) none).run ≠ none := by simp [State.planBegun]
  rw [Ev.runArbiter, if_pos hi, hc]
  simp only [Ev.startPlan_wait e p hs hd hw]
  rw [Ev.runSteps_quiet _ _ rfl, Ev.runArbiter_busy _ _ hb]

/-- Supervision arms only over an idle engine (R81). -/
theorem Ev.armSupervision_busy (e : Ev) (h : e.run ≠ none) : e.armSupervision = e := by
  unfold Ev.armSupervision
  rw [if_neg]
  rintro ⟨_, _, hr⟩
  exact h (by simpa using hr)

/-- The arbiter's run starts the plan it picks, and clears the marks (R60, R61). -/
theorem Ev.arbitrate_starts (e : Ev) (p : PlanId) {ms : Nat} (hr : e.run = none)
    (hc : e.choose = (e, some p)) (hs : e.sup = .inactive ∨ e.sup = .watching)
    (hd : e.dipSeen = false ∨ e.ride.state ≠ .normal) (hw : e.opensWithWait p ms) :
    e.arbitrate = { e.upd (e.planBegun p ms) none with arb := false, tgtChanged := false, planEnded := false } := by
  have h1 : Ev.runArbiter planFuel e = e.upd (e.planBegun p ms) none := Ev.runArbiter_starts 31 e p hr hc hs hd hw
  simp only [Ev.arbitrate, h1]
  split
  · exact Ev.armSupervision_busy _ (by simp [State.planBegun])
  · rename_i hp
    have hp' : e.planEnded = false := by simpa using hp
    rw [← hp']
    rfl

/-- A pending PANEL_SNAP comes first (R61). -/
theorem Ev.choose_panelSnap (e : Ev) (h1 : e.sys ≠ .starting) (h2 : e.sys ≠ .unconfigured)
    (h : e.isPending .panelSnap = true) : e.choose = (e, some .panelSnap) := by
  unfold Ev.choose
  split <;> simp_all

/-- A pending BOARD_SNAP comes next (R61). -/
theorem Ev.choose_boardSnap (e : Ev) (h1 : e.sys ≠ .starting) (h2 : e.sys ≠ .unconfigured)
    (h : e.isPending .panelSnap = false) (h' : e.isPending .boardSnap = true) : e.choose = (e, some .boardSnap) := by
  unfold Ev.choose
  split <;> simp_all

/-- With no snap plan pending a startable transition plan is picked (R61). -/
theorem Ev.choose_startable (e : Ev) {p : PlanId} (h : e.reqs = PendingSet.none) (h' : e.startable = some p) :
    e.choose = (e, some p) := by
  have hp : e.isPending .panelSnap = false := by simp [State.isPending, h, PendingSet.get, PendingSet.none]
  have hb : e.isPending .boardSnap = false := by simp [State.isPending, h, PendingSet.get, PendingSet.none]
  unfold Ev.choose
  split
  any_goals simp [hp, hb, h']
  all_goals simp_all [State.startable, State.duePlan]

end Sys2Proof.Machine

namespace Sys2Proof.Machine

/-! ### Resets -/

/-- The mains gate in its four conditions (R6, R20). -/
theorem State.gateOpen_iff (s : State) :
    s.gateOpen = true ↔ s.pins.acOk = true ∧ s.ride.state = .normal ∧ s.thermal.state ≠ .hot ∧ s.sys ≠ .starting := by
  have hheat : s.heatOpen = true ↔ s.thermal.state ≠ .hot := by
    unfold State.heatOpen
    cases s.thermal.state <;> simp
  simp [State.gateOpen, hheat, and_assoc]

/-- Settles O7: either part reset leaves `State.afterReset`'s values, and the gate is R6's outside STARTING. -/
theorem stateControllerAfterReset : Obligations.StateControllerAfterReset := by
  refine ⟨?_, ?_⟩
  · rintro c s (rfl | rfl)
    · refine ⟨_, rfl, rfl, rfl, rfl, rfl, fun w => ?_, rfl, ?_⟩
      · cases w <;> rfl
      · simp [State.gateOpen, State.afterReset]
    · refine ⟨_, rfl, rfl, rfl, rfl, rfl, fun w => ?_, rfl, ?_⟩
      · cases w <;> rfl
      · simp [State.gateOpen, State.afterReset]
  · intro s hs
    simp [State.gateOpen_iff, hs]

/-! ### Wake qualifiers at the end of start-up -/

/-- One qualifier begins to watch its line, the other two stand (R12). -/
theorem Ev.wakeWatch_wakeQ (e : Ev) (w v : WakeLine) :
    (e.wakeWatch w).wakeQ[wakeIdx v] =
      if v = w ∧ e.wakeQ[wakeIdx v] = .idle ∧ e.pins.wake[wakeIdx v] = true then
        .qualifying (e.now + 1000 * (e.cfg.wake v).qualifyMs)
      else e.wakeQ[wakeIdx v] := by
  unfold Ev.wakeWatch
  split <;> rename_i h
  · by_cases hv : v = w
    · subst hv
      simp [Ev.wakeBegin, Ev.setWakeQ, h]
    · have hne : (wakeIdx w).val ≠ (wakeIdx v).val := by
        cases v <;> cases w <;> simp_all [wakeIdx]
      simp [Ev.wakeBegin, Ev.setWakeQ, hv, hne]
  · by_cases hv : v = w
    · subst hv
      exact (if_neg (by simpa using h)).symm
    · simp [hv]

/-- What the qualifiers' begin of watching leaves alone. -/
theorem Ev.wakeWatch_eq (e : Ev) (w : WakeLine) :
    e.wakeWatch w = e.upd { e.toState with wakeQ := (e.wakeWatch w).wakeQ } e.ans := by
  unfold Ev.wakeWatch
  split <;> rfl

/-- The qualifiers begin to watch: nothing else changes (R12). -/
theorem Ev.wakeWatchAll_eq (e : Ev) :
    e.wakeWatchAll = e.upd { e.toState with wakeQ := e.wakeWatchAll.wakeQ } e.ans := by
  unfold Ev.wakeWatchAll
  rw [Ev.wakeWatch_eq e .key]
  generalize (e.wakeWatch .key).wakeQ = q1
  rw [Ev.wakeWatch_eq _ .ir]
  generalize (Ev.wakeWatch (e.upd { e.toState with wakeQ := q1 } e.ans) .ir).wakeQ = q2
  rw [Ev.wakeWatch_eq _ .aux]
  rfl

/-- Each IDLE qualifier whose line is asserted begins to time (R12). -/
theorem Ev.wakeWatchAll_wakeQ (e : Ev) (v : WakeLine) :
    e.wakeWatchAll.wakeQ[wakeIdx v] =
      if e.wakeQ[wakeIdx v] = .idle ∧ e.pins.wake[wakeIdx v] = true then
        .qualifying (e.now + 1000 * (e.cfg.wake v).qualifyMs)
      else e.wakeQ[wakeIdx v] := by
  have hpins (x : Ev) (w : WakeLine) : (x.wakeWatch w).pins = x.pins := (x.wakeWatch_frame (p := fun _ => True) w).pins
  have hnow (x : Ev) (w : WakeLine) : (x.wakeWatch w).now = x.now := (x.wakeWatch_frame (p := fun _ => True) w).now
  have hcfg (x : Ev) (w : WakeLine) : (x.wakeWatch w).cfg = x.cfg := by rw [Ev.wakeWatch_eq]; rfl
  unfold Ev.wakeWatchAll
  simp only [Ev.wakeWatch_wakeQ, hpins, hnow, hcfg]
  cases v <;> simp

/-! ### Changes of the system state -/

/-- With the key-hold timer IDLE, and the key not held on the way into BOARD_ON or PANEL_ON, it stays IDLE (R14). -/
theorem Ev.keyHoldLook_idle (e : Ev) (h : e.keyHold = .idle)
    (h' : (e.sys ≠ .boardOn ∧ e.sys ≠ .panelOn) ∨ e.pins.wake[wakeIdx .key] = false) : e.keyHoldLook = e := by
  unfold Ev.keyHoldLook
  simp only [h]
  rw [if_neg]
  obtain ⟨h1, h2⟩ | h' := h'
  · simp [h1, h2]
  · simp [h']

/-- A change of the system state with the key-hold timer left IDLE: the state and the STATE notice (R2, R7). -/
theorem Ev.setSys_eq (e : Ev) (x : SysState) (hx : x ≠ e.sys) (h : e.keyHold = .idle)
    (h' : (x ≠ .boardOn ∧ x ≠ .panelOn) ∨ e.pins.wake[wakeIdx .key] = false) :
    e.setSys x = ({ e with sys := x } : Ev).stateNotice := by
  rw [Ev.setSys, if_neg hx]
  exact Ev.keyHoldLook_idle _ h h'

/-- Settles O12. -/
theorem badImageLeavesUnconfigured : Obligations.BadImageLeavesUnconfigured := by
  intro s hc hg hs hk
  let e1 : Ev := { Ev.start s with tables := blankTables, store.checking := false }
  have h1 : e1.setSys .unconfigured = ({ e1 with sys := .unconfigured } : Ev).stateNotice :=
    Ev.setSys_eq e1 .unconfigured (by simp [e1, hs]) hk (.inl ⟨by decide, by decide⟩)
  have h2 : exec .imageCheckComplete s
      = .next (({ e1 with sys := .unconfigured } : Ev).stateNotice.wakeWatchAll).finish := by
    simp only [exec, execImageCheckComplete, runEvent, Ev.start_store, hc, hg, if_true, Bool.false_eq_true, if_false,
      Ev.badLoad, ← h1]
    rfl
  refine ⟨_, h2, ?_⟩
  have hq := fun w => Ev.wakeWatchAll_wakeQ ({ e1 with sys := .unconfigured } : Ev).stateNotice w
  rw [Ev.wakeWatchAll_eq, Ev.finish_stDirty _ rfl rfl]
  refine ⟨rfl, rfl, rfl, rfl, ?_, fun w => ?_, rfl, rfl, rfl, hk, rfl⟩
  · exact retake_enqueue _ _ _ _
  · refine (hq w).trans ?_
    cases w <;> rfl
end Sys2Proof.Machine

namespace Sys2Proof.Machine

/-! ### Requests that read -/

/-- A request served by telling a record is answered OK and changes nothing. -/
theorem request_told (k t : Byte) (b l : List Byte) (s : State) (h : s.ready)
    (ht : (Ev.start s).served ⟨k, t, b⟩ = (Ev.start s).tell l) :
    request k t b s = .next (s.replied ⟨k, t, b⟩ .ok l) := by
  rw [request_answered k t b s h, ht]
  rfl

/-- A source's byte names the source. -/
@[simp] theorem fin15OfByte_ofNat (i : Fin 15) : fin15OfByte (BitVec.ofNat 8 i.val) = some i := by
  revert i
  decide

/-- A rail's byte names the rail. -/
@[simp] theorem railOfByte_ofNat (r : Rail) : railOfByte (BitVec.ofNat 8 r.val) = some r := by
  revert r
  decide

/-- The address bytes of an entry are read as that entry (R173). -/
@[simp] theorem readAddress_addressBytes (g : Group) : readAddress g.addressBytes = some g := by
  cases g with
  | sense r => revert r; decide
  | timing r => revert r; decide
  | policy r => revert r; decide
  | header p => cases p <;> decide
  | step p n => revert n; cases p <;> decide
  | tier k => revert k; decide
  | line l => cases l <;> decide
  | wake w => cases w <;> decide
  | budget | ride | limit | thermal | lock | system => decide

/-- Settles O20: each reading request is served by telling its record. -/
theorem readsAnswerAndChangeNothing : Obligations.ReadsAnswerAndChangeNothing := by
  intro s tag hr
  refine ⟨request_told 1 tag [] _ s hr ?_, fun hs => ?_⟩
  · simp [Ev.served, Ev.dispatch, Ev.serveIdentify, Ev.start]
  · have hd (f : Frame) : (Ev.start s).served f = (Ev.start s).dispatch f := Ev.served_started _ f hs
    refine ⟨request_told 5 tag [] _ s hr ?_, fun r => request_told 6 tag _ _ s hr ?_,
      fun i => request_told 7 tag _ _ s hr ?_, request_told 8 tag [0] _ s hr ?_,
      fun i => request_told 9 tag _ _ s hr ?_, request_told 11 tag [] _ s hr ?_,
      fun g => request_told 15 tag _ _ s hr ?_⟩
    all_goals rw [hd]
    · rfl
    · simp [Ev.dispatch, Ev.serveReadRail, oneByte, Ev.start]
    · simp [Ev.dispatch, Ev.serveReadMeasure, measureArgs, named, noYes, Ev.start, Ev.tell]
    · rfl
    · simp [Ev.dispatch, Ev.serveReadFault, oneByte, Ev.start]
    · rfl
    · simp [Ev.dispatch, Ev.serveReadConfig, Ev.start]

/-! ### The way out of LOCKOUT -/

/-- A record with its latch set is LATCHED (R148). -/
theorem FaultRec.state_latched (f : FaultRec) (h : f.latch = true) : f.state = .latched := if_pos h

/-- A released record is no lockout latch (R153, R157). -/
theorem FaultRec.released_isLockout (f : FaultRec) : f.released.isLockout = false := by
  unfold FaultRec.released FaultRec.isLockout
  split <;> rfl

/-- A lockout latch remains exactly where some source has one (R157). -/
theorem State.anyLockout_eq_true (s : State) : s.anyLockout = true ↔ ∃ i : Fin 15, s.faults[i].isLockout = true := by
  unfold State.anyLockout
  simp only [List.any_eq_true, Vector.mem_toList_iff, Vector.mem_iff_getElem]
  constructor
  · rintro ⟨f, ⟨i, hi, rfl⟩, hf⟩
    exact ⟨⟨i, hi⟩, hf⟩
  · rintro ⟨i, hf⟩
    exact ⟨_, ⟨i.val, i.isLt, rfl⟩, hf⟩

/-- No lockout latch stands (R11). -/
theorem State.anyLockout_eq_false (s : State) : s.anyLockout = false ↔ ∀ i : Fin 15, s.faults[i].isLockout = false := by
  rw [← Bool.not_eq_true, State.anyLockout_eq_true]
  simp

/-- A rail's byte in a CLEAR_FAULT names its source. -/
@[simp] theorem clearArg_rail (r : Rail) : clearArg [BitVec.ofNat 8 r.val] = some (.one (srcRail r)) := by
  revert r
  decide

/-- Outside BOARD_ON and PANEL_ON the home test turns a rail OFF (R42). -/
theorem Ev.homeTest_off (e : Ev) (r : Rail) (h : e.sys ≠ .boardOn) (h' : e.sys ≠ .panelOn) :
    e.homeTest r = e.setRail r fun x => { x with state := .off, timer := none } := by
  have hc : (e.railCfg r).home.covers e.sys = false := by
    cases (e.railCfg r).home <;> cases hs : e.sys <;> simp_all [Home.covers]
  simp [Ev.homeTest, hc]

/-- The clear of a FAULTED rail outside BOARD_ON and PANEL_ON: the retry count is 0 and the rail is OFF (R42). -/
theorem Ev.railClear_off (e : Ev) (r : Rail) (hf : e.rails[r].state = .faulted) (h : e.sys ≠ .boardOn)
    (h' : e.sys ≠ .panelOn) :
    e.railClear r
      = e.upd { e.toState with
          rails := e.rails.set r { e.rails[r] with retryCount := 0, state := .off, timer := none } } e.ans := by
  simp only [Ev.railClear, hf]
  rw [Ev.homeTest_off _ r (by exact h) (by exact h')]
  simp only [Ev.setRail, Ev.upd]
  simp

/-- The rail's record is LATCHED, and releasing it clears a FAULTED rail outside BOARD_ON and PANEL_ON (R42, R153). -/
theorem Ev.clearOne_latchedRail (e : Ev) (r : Rail) (hl : e.faults[srcRail r].latch = true)
    (hf : e.rails[r].state = .faulted) (h : e.sys ≠ .boardOn) (h' : e.sys ≠ .panelOn) :
    e.clearOne (srcRail r)
      = e.upd { e.toState with
          faults := e.faults.set (srcRail r) e.faults[srcRail r].released
          notices := enqueue e.notices (.fault (srcRail r)) e.faults[srcRail r].released.noticeBody
          rails := e.rails.set r { e.rails[r] with retryCount := 0, state := .off, timer := none } } e.ans := by
  have hst : e.faults[srcRail r].state = .latched := FaultRec.state_latched _ hl
  have hsrc : srcRail r ≠ srcBusCurrent := by
    intro hc
    have := congrArg Fin.val hc
    simp only [srcRail, srcBusCurrent] at this
    omega
  have hlt : (srcRail r).val < 12 := r.isLt
  simp only [Ev.clearOne, hst, Ev.releaseLimitOf, if_neg hsrc, Ev.clearRailOf, dif_pos hlt]
  refine (Ev.railClear_off ((e.setFault (srcRail r) FaultRec.released).faultNotice (srcRail r)) r hf h h').trans ?_
  simp only [Ev.faultNotice, Ev.setFault, Ev.notice, Ev.upd, FaultRec.noticeBody]
  simp

/-- Settles O31. -/
theorem lockoutEndsWithItsLastLatch : Obligations.LockoutEndsWithItsLastLatch := by
  intro s tag r hready hsys hrail hlock hrun hreqs htgt hkey b f' n' s'
  have hl : s.faults[srcRail r].latch = true := by
    simp only [FaultRec.isLockout, Bool.and_eq_true] at hlock
    exact hlock.1
  have hone : (Ev.start s).clearOne (srcRail r) = Ev.start s' :=
    Ev.clearOne_latchedRail (Ev.start s) r hl hrail (by simp [hsys]) (by simp [hsys])
  have hne : ¬ s.faults[srcRail r].state = .active := by
    rw [FaultRec.state_latched _ hl]
    decide
  have hserved : (Ev.start s).served ⟨0x0A, tag, [b]⟩
      = { ev := (Ev.start s').lockoutExit.settle, status := .ok
          body := [codeIn faultStates (Ev.start s').lockoutExit.settle.faults[srcRail r].state] } := by
    rw [Ev.served_started _ _ (by simp [hsys])]
    show (Ev.start s).serveClearFault [b] = _
    simp only [Ev.serveClearFault, b, clearArg_rail, Ev.start_faults, if_neg hne, hone]
  have hany : s'.anyLockout = true ↔ ∃ i : Fin 15, i ≠ srcRail r ∧ s.faults[i].isLockout = true := by
    rw [State.anyLockout_eq_true]
    refine exists_congr fun i => ?_
    by_cases hi : i = srcRail r
    · subst hi
      simp [s', f', FaultRec.released_isLockout]
    · have : (srcRail r).val ≠ i.val := fun h => hi (Fin.ext h.symm)
      simp [s', hi, this]
  have hfault : s'.faults[srcRail r] = f' := by simp [s']
  refine ⟨fun hlast => ?_, fun hmore => ?_⟩
  · have hnone : s'.anyLockout = false := by
      rw [← Bool.not_eq_true, hany]
      rintro ⟨i, hi, hli⟩
      exact Bool.noConfusion ((hlast i hi).symm.trans hli)
    let s2 : State := { s' with sys := .standby, planLevels := s.planLevels.set 5 .high }
    let e2 : Ev := { Ev.start s2 with notices := enqueue n' .state s2.stateBody, stDirty := true, arb := true }
    have hexit : (Ev.start s').lockoutExit = e2 := by
      rw [Ev.lockoutExit, if_pos ⟨hsys, hnone⟩,
        Ev.setSys_eq _ _ (by simp [s', hsys]) (by exact hkey) (.inl ⟨by decide, by decide⟩)]
      rfl
    have hrest : e2.toState.atRest := ⟨hrun, hreqs, by simp [State.startable, State.duePlan, e2, s2, s', htgt]⟩
    refine (request_answered 0x0A tag [b] s hready).trans ?_
    have hbody : s2.stateBody = .state .standby .standby none := by
      simp [State.stateBody, State.runningPlan, s2, s', htgt, hrun]
    rw [hserved, hexit, Ev.settle_still e2 rfl rfl rfl (.inr hrest), Ev.finish_told _ (q := n') rfl rfl rfl]
    show Host.Outcome.next (({ s2 with notices := enqueue n' .state s2.stateBody } : State).replied _ .ok
      [codeIn faultStates s'.faults[srcRail r].state]) = _
    rw [hbody, hfault]
  · have hexit : (Ev.start s').lockoutExit = Ev.start s' := by
      rw [Ev.lockoutExit, if_neg]
      rintro ⟨_, hnone⟩
      exact Bool.noConfusion ((hany.2 hmore).symm.trans hnone)
    refine (request_answered 0x0A tag [b] s hready).trans ?_
    rw [hserved, hexit, Ev.settle_quiet _ rfl rfl rfl rfl]
    exact congrArg (fun f => Host.Outcome.next (s'.replied _ .ok [codeIn faultStates (FaultRec.state f)])) hfault

end Sys2Proof.Machine

namespace Sys2Proof.Machine

/-! ### The end of start-up -/

/-- A look of the power-good qualifiers changes rail records alone. -/
theorem Ev.pgLooks_eq (l : List Rail) (e : Ev) :
    l.foldl Ev.pgLook e = e.upd { e.toState with rails := (l.foldl Ev.pgLook e).rails } e.ans := by
  have hone (x : Ev) (r : Rail) : x.pgLook r = x.upd { x.toState with rails := (x.pgLook r).rails } x.ans := by
    unfold Ev.pgLook
    split
    · split <;> rfl
    · rfl
  induction l generalizing e with
  | nil => rfl
  | cons r l ih =>
    rw [List.foldl_cons, ih, hone e r]
    rfl

/-- A look of the power-good qualifiers moves no rail (R24). -/
theorem Ev.pgLooks_railStates (l : List Rail) (e : Ev) :
    (l.foldl Ev.pgLook e).rails.map (·.state) = e.rails.map (·.state) := by
  have hset (x : Ev) (r : Rail) (f : RailRt → RailRt) (hf : (f x.rails[r]).state = x.rails[r].state) :
      (x.setRail r f).rails.map (·.state) = x.rails.map (·.state) := by
    simp only [Ev.setRail_rails, Vector.map_set, hf]
    ext i hi
    by_cases h : r.val = i
    · subst h
      simp
    · simp [h]
  induction l generalizing e with
  | nil => rfl
  | cons r l ih =>
    rw [List.foldl_cons, ih]
    unfold Ev.pgLook
    split
    · split
      · exact hset e r _ rfl
      · exact hset e r _ rfl
    · rfl

/-- The end of start-up computes the reserve and leaves the tables, the store and the rest of the budget alone
(R16, R107). -/
theorem Ev.goLive_frame {p : Rail → Prop} (e : Ev) : e.recomputeReserve.Keeps p e.goLive := by
  have h1 := (e.recomputeReserve.loadPlanLevels_frame (p := p)).trans (Ev.setSys_frame _ .standby)
  have h2 (x : Ev) (t : Target) : x.Keeps p (x.writeTarget t).wakeWatchAll :=
    (x.writeTarget_frame t).trans (Ev.wakeWatchAll_frame _)
  have h3 (x : Ev) : x.Keeps p (allRails.foldl Ev.pgLook x) := .foldl (fun e r => e.pgLook_frame r) _ _
  have h4 (x : Ev) : x.Keeps p { x with arb := true } := .ofEq
  exact ((h1.trans (h2 _ _)).trans (h3 _)).trans (h4 _)

/-- The event right after the working tables are filled from the image (R16, R166, R176). -/
def Ev.loaded (e : Ev) : Ev :=
  { e with
    tables := e.store.image.tables
    store.checking := false
    store.revision := e.store.image.tables.system.revision }

/-- A good image's check ends start-up. -/
theorem exec_imageCheckComplete_good (s : State) (hc : s.store.checking = true) (hg : s.store.image.good = true) :
    exec .imageCheckComplete s = .next (Ev.start s).loaded.goLive.settle.finish := by
  simp only [exec, execImageCheckComplete, runEvent, Ev.start_store, hc, hg, if_true, Ev.goodLoad]
  rfl

/-- The reserve as an edit or a load computes it is that of the working tables (R106, R107). -/
theorem Ev.recomputeReserve_matches (e : Ev) : e.recomputeReserve.reserveMatches := ⟨rfl, rfl, rfl⟩

/-- The working tables, the store and the reserve after a good image's check (R16, R107, R166). -/
theorem Ev.loaded_settled (s : State) :
    let t := (Ev.start s).loaded.goLive.settle.finish
    t.tables = s.store.image.tables
      ∧ t.store = { s.store with checking := false, revision := s.store.image.tables.system.revision }
      ∧ t.reserveMatches ∧ t.bud.record = s.bud.record := by
  have h := ((Ev.start s).loaded.goLive_frame (p := fun _ => True)).trans (Ev.settle_frame _)
  refine ⟨?_, ?_, ?_, ?_⟩
  · rw [Ev.finish_tables, h.tables]
    rfl
  · rw [Ev.finish_store, h.store]
    rfl
  · have hm := (Ev.start s).loaded.recomputeReserve_matches
    unfold State.reserveMatches at hm ⊢
    rw [Ev.finish_bud, Ev.finish_tables, h.bud, h.tables]
    exact hm
  · rw [Ev.finish_bud, h.bud]
    rfl

/-- With the mains gate closed, STANDBY and an idle engine start no plan (R5, R61). -/
theorem State.startable_standby {s : State} (hs : s.sys = .standby) (h : s.target = .standby ∨ s.gateOpen = false) :
    s.startable = none := by
  unfold State.startable State.duePlan
  obtain h | h := h
  · simp [hs, h]
  · cases ht : s.target <;> simp [hs, h, PlanId.isUp]

/-- A target written after a STATE notice of the same event changes that notice alone in the queue (R2, R3). -/
theorem Ev.writeTarget_told (e : Ev) (t : Target) {q : List Notice} {b : NoticeBody}
    (h : e.notices = enqueue q .state b) (h1 : e.stDirty = true) :
    ∃ (b' : NoticeBody) (c d : Bool), e.writeTarget t
      = { e with target := t, retArmed := c, notices := enqueue q .state b', tgtChanged := d } := by
  unfold Ev.writeTarget
  split
  · rename_i ht
    exact ⟨b, e.retArmed, e.tgtChanged, by rw [ht, ← h]⟩
  · refine ⟨({ e with target := t, retArmed := false } : Ev).stateBody, false, true, ?_⟩
    simp only [Ev.stateNotice, Ev.notice, h, enqueue_enqueue, h1]

/-- An event that sets nothing off and queued STATE last leaves STATE with what it leaves. -/
theorem Ev.settle_told (e : Ev) {q : List Notice} {b : NoticeBody} (h1 : e.ans = none) (h2 : e.act = none)
    (h3 : e.planEnded = false) (h : e.toState.still) (h4 : e.notices = enqueue q .state b) (h5 : e.stDirty = true)
    (h6 : e.pwDirty = false) :
    e.settle.finish = { e.toState with notices := enqueue q .state e.stateBody } := by
  rw [Ev.settle_still e h1 h2 h3 h]
  exact Ev.finish_told _ h4 h5 h6

/-- The qualifiers' begin of watching changes wake qualifiers and rail records alone, and moves no rail (R12, R24). -/
theorem Ev.startLooks_eq (e : Ev) :
    ∃ (q : Vector WakeQ 3) (rs : Vector RailRt 12), rs.map (·.state) = e.rails.map (·.state)
      ∧ allRails.foldl Ev.pgLook e.wakeWatchAll = e.upd { e.toState with wakeQ := q, rails := rs } e.ans := by
  refine ⟨e.wakeWatchAll.wakeQ, (allRails.foldl Ev.pgLook e.wakeWatchAll).rails, ?_, ?_⟩
  · rw [Ev.pgLooks_railStates, Ev.wakeWatchAll_eq]
    rfl
  · conv_lhs => rw [Ev.pgLooks_eq]
    generalize (allRails.foldl Ev.pgLook e.wakeWatchAll).rails = rs
    rw [Ev.wakeWatchAll_eq]
    rfl

/-- The end of start-up from an idle STARTING, where no plan is due or the gate is closed: no plan starts (R16). -/
theorem Ev.goLive_standby (e : Ev) (hsys : e.sys = .starting) (hrun : e.run = none) (hreqs : e.reqs = PendingSet.none)
    (hkey : e.keyHold = .idle) (hans : e.ans = none) (hact : e.act = none) (hpe : e.planEnded = false)
    (hpw : e.pwDirty = false)
    (hgate : e.tables.system.autoOn = .standby ∨ e.pins.acOk = false ∨ e.ride.state ≠ .normal
      ∨ e.thermal.state = .hot) :
    let t := e.goLive.settle.finish
    t.sys = .standby ∧ t.target = e.tables.system.autoOn ∧ t.run = none
      ∧ t.rails.map (·.state) = e.rails.map (·.state)
      ∧ t.planLevels = e.loadPlanLevels.planLevels
      ∧ t.notices = enqueue e.notices .state (.state .standby e.tables.system.autoOn none) := by
  let x1 : Ev := ({ e.recomputeReserve.loadPlanLevels with sys := .standby } : Ev).stateNotice
  have h1 : (e.recomputeReserve.loadPlanLevels).setSys .standby = x1 :=
    Ev.setSys_eq _ _ (by simp [Ev.loadPlanLevels, Ev.recomputeReserve, hsys]) hkey (.inl ⟨by decide, by decide⟩)
  obtain ⟨b, c, d, h2⟩ := Ev.writeTarget_told x1 e.tables.system.autoOn (q := e.notices) rfl rfl
  obtain ⟨q, rs, hrs, h3⟩ := Ev.startLooks_eq (x1.writeTarget e.tables.system.autoOn)
  have hlive : e.goLive = { allRails.foldl Ev.pgLook (x1.writeTarget e.tables.system.autoOn).wakeWatchAll with
      arb := true } := by
    unfold Ev.goLive
    simp only [h1]
    rfl
  let x2 : Ev := { x1 with
    target := e.tables.system.autoOn, retArmed := c, notices := enqueue e.notices .state b, tgtChanged := d, wakeQ := q
    rails := rs, arb := true }
  have hlive' : e.goLive = x2 := by
    rw [hlive, h3, h2]
    rfl
  rw [h2] at hrs
  have hrest : x2.toState.atRest := by
    refine ⟨hrun, hreqs, State.startable_standby rfl ?_⟩
    refine hgate.imp id fun h => ?_
    rw [← Bool.not_eq_true, State.gateOpen_iff]
    rintro ⟨h1, h2, h3, _⟩
    obtain h | h | h := h
    · exact Bool.noConfusion (h1.symm.trans h)
    · exact h h2
    · exact h3 h
  have hbody : x2.stateBody = .state .standby e.tables.system.autoOn none :=
    congrArg (fun r => NoticeBody.state _ _ (Option.map Run.plan r)) hrun
  have hend := Ev.settle_told x2 hans hact hpe (.inr hrest) rfl rfl hpw
  rw [hbody] at hend
  rw [hlive', hend]
  exact ⟨rfl, rfl, hrun, hrs, rfl, rfl⟩

/-- Settles O13. -/
theorem goodImageIsLoaded : Obligations.GoodImageIsLoaded := by
  intro s hc hg
  obtain ⟨h1, h2, h3, h4⟩ := Ev.loaded_settled s
  refine ⟨_, exec_imageCheckComplete_good s hc hg, h1, h2, h3, h4, fun hsys hrun hreqs hkey hgate => ?_⟩
  rw [h1] at hgate ⊢
  obtain ⟨g1, g2, g3, g4, g5, g6⟩ := Ev.goLive_standby (Ev.start s).loaded hsys hrun hreqs hkey rfl rfl rfl rfl hgate
  refine ⟨g1, g2, g3, g4, fun l => ?_, ?_⟩
  · rw [g5]
    cases l <;> rfl
  · rw [g6, g2]
    rfl

end Sys2Proof.Machine

namespace Sys2Proof.Machine

/-! ### A stored image -/

/-- The image that a verified STORE of the tables leaves (R175). -/
def Image.verified (t : Tables) : Image := { Image.written t with valid := true }

/-- Tables within their ranges make a good image, once stored and verified (R176). -/
theorem Image.verified_good {t : Tables} (h : t.ok = true) : (Image.verified t).good = true := by
  simp [Image.good, Image.verified, Image.written, h]

/-- An accepted STORE begins the write of the working tables (R175). -/
theorem exec_store_ok (s : State) (tag : Byte) (hr : s.ready) (hs : s.sys ≠ .starting) (hride : s.ride.state = .normal)
    (hac : s.pins.acOk = true) (hw : s.store.writing = false) :
    exec (.store tag []) s = .next
      (({ s with store.writing := true, store.image := Image.written s.tables } : State).replied
        ⟨0x11, tag, []⟩ .ok []) := by
  have hcheck : s.storeCheck [] = .ok := by simp [State.storeCheck, hride, hac, hw]
  have hserved : (Ev.start s).served ⟨0x11, tag, []⟩
      = { ev := (Ev.start s).beginStore, status := .ok, body := [] } := by
    rw [Ev.served_started _ _ hs]
    exact if_pos hcheck
  refine (request_answered 0x11 tag [] s hr).trans ?_
  rw [hserved]
  rfl

/-- A verified write leaves the image valid with the contents it had (R175); the move to STANDBY does not touch it. -/
theorem exec_storeVerified_image (s : State) (hw : s.store.writing = true) :
    ∃ t, exec .storeVerified s = .next t ∧ t.store.image = { s.store.image with valid := true } := by
  refine ⟨((Ev.start s).storeVerified).finish, ?_, ?_⟩
  · simp only [exec, execStoreVerified, runEvent, Ev.start_store, hw, if_true]
  · have hlive (e : Ev) : e.goLive.settle.store = e.store :=
      ((e.goLive_frame (p := fun _ => True)).trans (Ev.settle_frame _)).store
    rw [Ev.finish_store, Ev.storeVerified]
    dsimp only
    split
    · rw [hlive]
      rfl
    · rfl

/-- The check of a good image at the end of a pin reset makes its tables the working tables (R15, R16, R176). -/
theorem runAll_pinReset_good (s : State) (hg : s.store.image.good = true) :
    ∃ t, runAll [.pinReset, .endOfPinReset, .imageCheckComplete] s = .next t ∧ t.tables = s.store.image.tables
      ∧ t.store.revision = s.store.image.tables.system.revision ∧ t.reserveMatches := by
  obtain ⟨s3, h3, hin, hi3⟩ : ∃ s3, exec .pinReset s = .next s3 ∧ s3.pins.inReset = true
      ∧ s3.store.image = s.store.image := ⟨_, rfl, rfl, rfl⟩
  obtain ⟨s4, h4, hc4, hi4⟩ : ∃ s4, exec .endOfPinReset s3 = .next s4 ∧ s4.store.checking = true
      ∧ s4.store.image = s3.store.image :=
    ⟨{ s3 with pins.inReset := false, scan := Scanner.reset s3.now, store.checking := true }, if_pos hin, rfl, rfl⟩
  rw [← hi3, ← hi4] at hg ⊢
  obtain ⟨ht, hst, hm, _⟩ := Ev.loaded_settled s4
  refine ⟨_, ?_, ht, congrArg Store.revision hst, hm⟩
  simp only [runAll, h3, h4, exec_imageCheckComplete_good s4 hc4 hg]

/-- Settles O43. -/
theorem storedTablesSurviveAPinReset : Obligations.StoredTablesSurviveAPinReset := by
  intro s tag hr hs hride hac hw hok
  have h1 := exec_store_ok s tag hr hs hride hac hw
  generalize hs1 : (({ s with store.writing := true, store.image := Image.written s.tables } : State).replied
    ⟨0x11, tag, []⟩ .ok []) = s1 at h1
  obtain ⟨s2, h2, hi2⟩ := exec_storeVerified_image s1 (by rw [← hs1]; rfl)
  have himage : s2.store.image = Image.verified s.tables := by
    rw [hi2, ← hs1]
    rfl
  obtain ⟨t, ht, h3, h4, h5⟩ := runAll_pinReset_good s2 (by rw [himage]; exact Image.verified_good hok)
  rw [himage] at h3 h4
  refine ⟨t, ?_, h3, h4, h5⟩
  rw [← ht]
  simp only [runAll, h1, h2]

end Sys2Proof.Machine

namespace Sys2Proof.Machine

/-! ### The mains gate and the return -/

/-- An operation that leaves the gate closed opens nothing (R6). -/
theorem Ev.gated_closed (e : Ev) (f : Ev → Ev) (h : (f e).gateOpen = false) : e.gated f = f e := by
  simp [Ev.gated, h]

/-- With no armed return an opening of the gate is at most marked for the arbiter (R6, R18). -/
theorem Ev.gated_unarmed (e : Ev) (f : Ev → Ev) (h : (f e).retArmed = false) :
    ∃ b, e.gated f = { f e with arb := b } := by
  unfold Ev.gated
  split
  · exact ⟨true, by simp [Ev.fireReturn, h]⟩
  · exact ⟨(f e).arb, rfl⟩

/-- Outside NORMAL the gate is closed (R6). -/
theorem State.gateOpen_ride {s : State} (h : s.ride.state ≠ .normal) : s.gateOpen = false := by
  rw [← Bool.not_eq_true, State.gateOpen_iff]
  exact fun hg => h hg.2.1

/-- With AC_OK deasserted the gate is closed (R6). -/
theorem State.gateOpen_acOk {s : State} (h : s.pins.acOk = false) : s.gateOpen = false := by
  rw [← Bool.not_eq_true, State.gateOpen_iff]
  exact fun hg => Bool.noConfusion (h.symm.trans hg.1)

/-- An event that sets nothing off and queued nothing that shows the state leaves what it wrote. -/
theorem Ev.settle_silent (e : Ev) (h1 : e.ans = none) (h2 : e.act = none) (h3 : e.planEnded = false)
    (h : e.toState.still) (h5 : e.stDirty = false) (h6 : e.pwDirty = false) : e.settle.finish = e.toState := by
  rw [Ev.settle_still e h1 h2 h3 h]
  exact Ev.finish_clean _ h5 h6

/-- An event that sets nothing off and queued POWER last leaves POWER with what it leaves. -/
theorem Ev.settle_powerTold (e : Ev) {q : List Notice} {b : NoticeBody} (h1 : e.ans = none) (h2 : e.act = none)
    (h3 : e.planEnded = false) (h : e.toState.still) (h4 : e.notices = enqueue q .power b) (h5 : e.stDirty = false)
    (h6 : e.pwDirty = true) :
    e.settle.finish = { e.toState with notices := enqueue q .power e.powerBody } := by
  rw [Ev.settle_still e h1 h2 h3 h]
  exact Ev.finish_powerTold _ h4 h5 h6

/-- The same for an event with no mark at all, whatever the engine does. -/
theorem Ev.settle_quiet_powerTold (e : Ev) {q : List Notice} {b : NoticeBody} (h1 : e.ans = none)
    (h2 : e.tgtChanged = false) (h3 : e.arb = false) (h : e.act = none) (h4 : e.notices = enqueue q .power b)
    (h5 : e.stDirty = false) (h6 : e.pwDirty = true) :
    e.settle.finish = { e.toState with notices := enqueue q .power e.powerBody } := by
  rw [Ev.settle_quiet e h1 h2 h3 h]
  exact Ev.finish_powerTold _ h4 h5 h6

/-! ### A change of AC_OK -/

/-- A change of AC_OK is an event of the Ride-Through Controller. -/
theorem exec_acOkChange (s : State) (b : Bool) (h : b ≠ s.pins.acOk) :
    exec (.acOkChange b) s = .next ((Ev.start s).acChange b).settle.finish := by
  simp [exec, execAcOkChange, runEvent, h]

/-- A dip that begins enters QUALIFY (R115). -/
theorem Ev.judgeDip_begins (e : Ev) (h1 : e.ride.state = .normal) (h2 : e.rideArmed = true) (h3 : e.dipSeen = true)
    (h4 : 0 < e.cfg.ride.qualifyMs) :
    e.judgeDip
      = ({ e with ride.state := .qualify, ride.qualifyTimer := e.after e.cfg.ride.qualifyMs } : Ev).powerNotice := by
  rw [Ev.judgeDip, if_pos ⟨h1, h2, h3⟩, Ev.enterQualify, if_neg (Nat.ne_of_gt h4)]

/-- AC_OK deasserted (R115, R116, R119, R121). -/
theorem exec_acOkChange_false (s : State) (hac : s.pins.acOk = true) :
    let s1 : State := { s with pins.acOk := false }
    (s.ride.state = .normal → s.rideArmed = false → exec (.acOkChange false) s = .next s1)
    ∧ (s.ride.state = .normal → s.rideArmed = true → 0 < s.cfg.ride.qualifyMs →
        exec (.acOkChange false) s = .next ({ s1 with
          ride.state := .qualify
          ride.qualifyTimer := some (s.now + 1000 * s.cfg.ride.qualifyMs) } : State).powerTold)
    ∧ (s.ride.state = .qualify → exec (.acOkChange false) s = .next s1)
    ∧ (s.ride.state = .riding → s.ride.settling = true → exec (.acOkChange false) s
        = .next ({ s1 with ride.settling := false, ride.settleTimer := none } : State).powerTold)
    ∧ (s.ride.state = .riding → s.ride.settling = false → exec (.acOkChange false) s = .next s1)
    ∧ (s.ride.state = .restoring → exec (.acOkChange false) s = .next ({ s1 with
        ride.state := .riding
        ride.settling := false
        ride.settleTimer := none
        ride.restoreTimer := none
        ride.limitTimer := if s.cfg.ride.rideLimitMs = 0 then none
          else some (s.now + 1000 * s.cfg.ride.rideLimitMs) } : State).powerTold)
    ∧ (s.ride.state = .committed ∨ s.ride.state = .rest → exec (.acOkChange false) s = .next s1) := by
  intro s1
  have hg : (Ev.start s).gated (fun e => { e with pins.acOk := false }) = Ev.start s1 :=
    Ev.gated_closed _ _ (State.gateOpen_acOk rfl)
  have hx {e2 : Ev} (h : (Ev.start s).acChange false = e2) :
      exec (.acOkChange false) s = .next e2.settle.finish := by
    rw [exec_acOkChange s false (by simp [hac]), h]
  have hquiet : (Ev.start s1).settle.finish = s1 := by
    rw [Ev.settle_quiet _ rfl rfl rfl rfl, Ev.finish_start]
  refine ⟨fun hr ha => ?_, fun hr ha hq => ?_, fun hr => ?_, fun hr hs => ?_, fun hr hs => ?_, fun hr => ?_,
    fun hr => ?_⟩
  · have hc : (Ev.start s).acChange false = (Ev.start s1).judgeDip := by
      simp only [Ev.acChange, Ev.start_ride, hr, hg]
    rw [hx hc, Ev.judgeDip_unarmed _ (by exact ha), hquiet]
  · have hc : (Ev.start s).acChange false = (Ev.start s1).judgeDip := by
      simp only [Ev.acChange, Ev.start_ride, hr, hg]
    rw [hx hc, Ev.judgeDip_begins _ (by exact hr) (by exact ha) rfl (by exact hq),
      Ev.settle_quiet_powerTold _ (q := s.notices) rfl rfl rfl rfl rfl rfl rfl]
    rfl
  · have hno : (Ev.start s1).returnTest (Ev.start s1).bud.record.vb = false := rfl
    have hc : (Ev.start s).acChange false = Ev.start s1 := by
      simp only [Ev.acChange, Ev.start_ride, hr, hg, hno, Bool.false_eq_true, if_false]
    rw [hx hc, hquiet]
  · have hstop : (Ev.start s1).settlingStop
        = ({ Ev.start s1 with ride.settling := false, ride.settleTimer := none } : Ev).powerNotice := if_pos hs
    have hc : (Ev.start s).acChange false = (Ev.start s1).settlingStop := by
      simp only [Ev.acChange, Ev.start_ride, hr, hg, Bool.false_eq_true, if_false]
    rw [hx hc, hstop, Ev.settle_quiet_powerTold _ (q := s.notices) rfl rfl rfl rfl rfl rfl rfl]
    rfl
  · have hstop : (Ev.start s1).settlingStop = Ev.start s1 := if_neg (by simp [s1, hs])
    have hc : (Ev.start s).acChange false = (Ev.start s1).settlingStop := by
      simp only [Ev.acChange, Ev.start_ride, hr, hg, Bool.false_eq_true, if_false]
    rw [hx hc, hstop, hquiet]
  · have hc : (Ev.start s).acChange false = (Ev.start s1).enterRiding := by
      simp only [Ev.acChange, Ev.start_ride, hr, hg, Bool.false_eq_true, if_false]
    rw [hx hc, Ev.enterRiding, Ev.settle_quiet_powerTold _ (q := s.notices) rfl rfl rfl rfl rfl rfl rfl]
    rfl
  · have hc : (Ev.start s).acChange false = Ev.start s1 := by
      obtain hr | hr := hr <;> simp only [Ev.acChange, Ev.start_ride, hr, hg]
    rw [hx hc, hquiet]

/-- No dip is seen with AC_OK asserted and a below-dip count other than 2 (R115). -/
theorem State.dipSeen_acOk {s : State} (h : s.pins.acOk = true) (h' : s.ride.belowDip ≠ 2) : s.dipSeen = false := by
  simp [State.dipSeen, h, h']

/-- A short dip with no armed return: the dip is counted, NORMAL is entered, and a gate that opens is marked for the
arbiter (R6, R116). -/
theorem Ev.shortDip_unarmed (e : Ev) (hac : e.pins.acOk = true) (hret : e.retArmed = false) :
    ∃ b, e.shortDip = { ({ e with
      ride.state := .normal
      ride.belowDip := 0
      ride.qualifyTimer := none
      ride.stats.shortDips := satInc 65535 e.ride.stats.shortDips } : Ev).powerNotice with arb := b } := by
  obtain ⟨b, hb⟩ := Ev.gated_unarmed
    { e with ride.qualifyTimer := none, ride.stats.shortDips := satInc 65535 e.ride.stats.shortDips }
    (fun e => { e with ride.state := .normal, ride.belowDip := 0 }.powerNotice) hret
  refine ⟨b, ?_⟩
  rw [Ev.shortDip, Ev.enterNormal, hb]
  exact Ev.judgeDip_none _ (.inl (State.dipSeen_acOk hac (show (0 : Nat) ≠ 2 by decide)))

/-- An armed return that fires at the opening of the gate writes its target (R18). -/
theorem Ev.gated_fires (e : Ev) (f : Ev → Ev) {g : Target} (h1 : e.gateOpen = false) (h2 : (f e).gateOpen = true)
    (h3 : (f e).retArmed = true) (h4 : (f e).retVal = some g) (h5 : g ≠ (f e).target) :
    e.gated f = { ({ f e with target := g, retVal := none, retArmed := false } : Ev).stateNotice with
      tgtChanged := true, arb := true } := by
  have hg : (!e.gateOpen && (f e).gateOpen) = true := by simp [h1, h2]
  rw [Ev.gated, if_pos hg, Ev.fireReturn, if_pos h3, h4]
  simp only [Ev.writeTarget, if_neg h5]

/-- With AC_OK asserted QUALIFY's return test looks at Vb alone (R116). -/
theorem State.returnTest_acOk {s : State} (vb : Nat) (h : s.pins.acOk = true) :
    s.returnTest vb = decide (s.cfg.ride.dipLevel ≤ vb) := by
  simp [State.returnTest, h]

/-- AC_OK asserted where the ride goes on, or waits for its bus voltage (R116, R119, R121). -/
theorem exec_acOkChange_true_stays (s : State) (hac : s.pins.acOk = false)
    (h : s.ride.state = .riding ∨ s.ride.state = .restoring ∨ s.ride.state = .committed ∨ s.ride.state = .rest
      ∨ (s.ride.state = .qualify ∧ s.bud.record.vb < s.cfg.ride.dipLevel)) :
    exec (.acOkChange true) s = .next { s with pins.acOk := true } := by
  let s1 : State := { s with pins.acOk := true }
  have hride : s.ride.state ≠ .normal := by
    obtain h | h | h | h | ⟨h, _⟩ := h <;> simp [h]
  have hg : (Ev.start s).gated (fun e => { e with pins.acOk := true }) = Ev.start s1 :=
    Ev.gated_closed _ _ (State.gateOpen_ride hride)
  have hc : (Ev.start s).acChange true = Ev.start s1 := by
    obtain h | h | h | h | ⟨h, hvb⟩ := h
    any_goals simp only [Ev.acChange, Ev.start_ride, h, hg, if_true]
    have hno : (Ev.start s1).returnTest (Ev.start s1).bud.record.vb = false :=
      (State.returnTest_acOk _ rfl).trans (decide_eq_false (Nat.not_le.2 hvb))
    rw [hno, if_neg (by decide)]
  rw [exec_acOkChange s true (by simp [hac]), hc, Ev.settle_quiet _ rfl rfl rfl rfl, Ev.finish_start]

/-- AC_OK asserted ends a short dip (R116). -/
theorem exec_acOkChange_true_shortDip (s : State) (hac : s.pins.acOk = false) (hr : s.ride.state = .qualify)
    (hvb : s.cfg.ride.dipLevel ≤ s.bud.record.vb) (hret : s.retArmed = false) :
    let s2 : State :=
      { s with
        pins.acOk := true
        ride.state := .normal
        ride.belowDip := 0
        ride.qualifyTimer := none
        ride.stats.shortDips := satInc 65535 s.ride.stats.shortDips }
    s2.still → exec (.acOkChange true) s = .next s2.powerTold := by
  intro s2 hstill
  let s1 : State := { s with pins.acOk := true }
  have hg : (Ev.start s).gated (fun e => { e with pins.acOk := true }) = Ev.start s1 :=
    Ev.gated_closed _ _ (State.gateOpen_ride (by simp [hr]))
  have hyes : (Ev.start s1).returnTest (Ev.start s1).bud.record.vb = true :=
    (State.returnTest_acOk _ rfl).trans (decide_eq_true hvb)
  have hc : (Ev.start s).acChange true = (Ev.start s1).shortDip := by
    simp only [Ev.acChange, Ev.start_ride, hr, hg, hyes, if_true]
  obtain ⟨b, hb⟩ := Ev.shortDip_unarmed (Ev.start s1) rfl hret
  rw [exec_acOkChange s true (by simp [hac]), hc, hb,
    Ev.settle_powerTold _ (q := s.notices) rfl rfl rfl (by exact hstill) rfl rfl rfl]
  rfl

/-- AC_OK asserted in NORMAL with no return armed opens the gate (R6). -/
theorem exec_acOkChange_true_normal (s : State) (hac : s.pins.acOk = false) (hr : s.ride.state = .normal)
    (hb2 : s.ride.belowDip ≠ 2) (hret : s.retArmed = false) (hstill : ({ s with pins.acOk := true } : State).still) :
    exec (.acOkChange true) s = .next { s with pins.acOk := true } := by
  obtain ⟨b, hg⟩ := Ev.gated_unarmed (Ev.start s) (fun e => { e with pins.acOk := true }) hret
  have hc : (Ev.start s).acChange true = { Ev.start { s with pins.acOk := true } with arb := b } := by
    simp only [Ev.acChange, Ev.start_ride, hr, hg]
    exact Ev.judgeDip_none _ (.inl (State.dipSeen_acOk rfl hb2))
  rw [exec_acOkChange s true (by simp [hac]), hc, Ev.settle_silent _ rfl rfl rfl (by exact hstill) rfl rfl]
  rfl

/-- AC_OK asserted in NORMAL opens the gate, and the armed return fires (R6, R18). -/
theorem exec_acOkChange_true_return (s : State) {g : Target} (hac : s.pins.acOk = false) (hr : s.ride.state = .normal)
    (hb2 : s.ride.belowDip ≠ 2) (hsys : s.sys ≠ .starting) (hheat : s.thermal.state ≠ .hot) (hret : s.retArmed = true)
    (hval : s.retVal = some g) (hne : g ≠ s.target) :
    let s2 : State := { s with pins.acOk := true, target := g, retVal := none, retArmed := false }
    s2.still → exec (.acOkChange true) s = .next s2.stateTold := by
  intro s2 hstill
  have hg := Ev.gated_fires (Ev.start s) (fun e => { e with pins.acOk := true }) (State.gateOpen_acOk hac)
    ((State.gateOpen_iff _).2 ⟨rfl, hr, hheat, hsys⟩) hret hval hne
  have hc : (Ev.start s).acChange true = { (Ev.start s2).stateNotice with tgtChanged := true, arb := true } := by
    simp only [Ev.acChange, Ev.start_ride, hr, hg]
    exact Ev.judgeDip_none _ (.inl (State.dipSeen_acOk rfl hb2))
  rw [exec_acOkChange s true (by simp [hac]), hc,
    Ev.settle_told _ (q := s.notices) rfl rfl rfl (by exact hstill) rfl rfl rfl]
  rfl

/-- Settles O44. -/
theorem acOkChangeMovesTheRide : Obligations.AcOkChangeMovesTheRide := by
  intro s
  refine ⟨?_, exec_acOkChange_false s, fun hac => ⟨exec_acOkChange_true_stays s hac,
    exec_acOkChange_true_shortDip s hac, exec_acOkChange_true_normal s hac,
    fun g => exec_acOkChange_true_return s hac⟩⟩
  simp [exec, execAcOkChange, runEvent]

end Sys2Proof.Machine

namespace Sys2Proof.Machine

/-! ### Wake lines -/

/-- An assertion of a wake line at its qualifier (R12). -/
theorem Ev.wakeLine_true (e : Ev) (w : WakeLine) :
    e.wakeLine w true = e.setWakeQ w
      (if e.sys ≠ .starting ∧ e.wakeQ[wakeIdx w] = .idle then .qualifying (e.now + 1000 * (e.cfg.wake w).qualifyMs)
        else e.wakeQ[wakeIdx w]) := by
  have hself {q : WakeQ} (h : e.wakeQ[wakeIdx w] = q) : e.setWakeQ w q = e := by
    subst h
    simp [Ev.setWakeQ]
  unfold Ev.wakeLine
  by_cases hs : e.sys = .starting
  · simp [-Fin.getElem_fin, hs, hself rfl]
  · cases hq : e.wakeQ[wakeIdx w] <;> simp [hs, Ev.wakeBegin, hself hq]

/-- A release of a wake line at its qualifier (R12). -/
theorem Ev.wakeLine_false (e : Ev) (w : WakeLine) :
    e.wakeLine w false = e.setWakeQ w (if e.sys ≠ .starting then .idle else e.wakeQ[wakeIdx w]) := by
  have hself {q : WakeQ} (h : e.wakeQ[wakeIdx w] = q) : e.setWakeQ w q = e := by
    subst h
    simp [Ev.setWakeQ]
  unfold Ev.wakeLine
  by_cases hs : e.sys = .starting
  · simp [-Fin.getElem_fin, hs, hself rfl]
  · cases hq : e.wakeQ[wakeIdx w] <;> simp [hs, hself hq]

/-- An assertion of WAKE_KEY at the key-hold timer, one that times only in BOARD_ON or PANEL_ON (R14). -/
theorem Ev.keyHoldLook_asserted (e : Ev) (hk : e.pins.wake[wakeIdx .key] = true)
    (ht : ∀ d, e.keyHold = .timing d → e.sys = .boardOn ∨ e.sys = .panelOn) :
    e.keyHoldLook = { e with
      keyHold :=
        if e.keyHold = .idle ∧ (e.sys = .boardOn ∨ e.sys = .panelOn) then
          .timing (e.now + 1000 * e.cfg.system.keyHoldMs)
        else e.keyHold } := by
  have hself {k : KeyHold} (h : e.keyHold = k) : ({ e with keyHold := k } : Ev) = e := by
    subst h
    rfl
  unfold Ev.keyHoldLook
  cases hkh : e.keyHold with
  | idle => by_cases hup : e.sys = .boardOn ∨ e.sys = .panelOn <;> simp [hup, hk, hself hkh]
  | timing d => simp [ht d hkh, hself hkh]
  | fired => simp [hself hkh]

/-- A target written by a writer that disarms the return, where it sets nothing off. -/
theorem Ev.retarget_settled (s : State) {g : Target} (hne : s.target ≠ g) (h : s.unmovedBy g) :
    (Ev.writeTarget { Ev.start s with retArmed := false } g).settle.finish = s.retargeted g := by
  have hw : Ev.writeTarget { Ev.start s with retArmed := false } g
      = { ({ Ev.start s with target := g, retArmed := false } : Ev).stateNotice with tgtChanged := true } :=
    if_neg (Ne.symm hne)
  rw [hw, Ev.settle_told _ (q := s.notices) rfl rfl rfl (by exact h) rfl rfl rfl]
  rfl

/-- A target that stands, written by a writer that disarms the return. -/
theorem Ev.disarm_settled (s : State) :
    (Ev.writeTarget { Ev.start s with retArmed := false } s.target).settle.finish = { s with retArmed := false } := by
  have hw : Ev.writeTarget { Ev.start s with retArmed := false } s.target = { Ev.start s with retArmed := false } :=
    if_pos rfl
  rw [hw, Ev.settle_quiet _ rfl rfl rfl rfl]
  rfl

/-- The qualify time of a line runs out: its qualifier is HELD and the wake is judged (R12, R13). -/
theorem exec_wakeQualifyExpiry (s : State) (w : WakeLine) {d : Nat} (h : s.wakeQ[wakeIdx w] = .qualifying d) :
    exec (.wakeQualifyExpiry w) s
      = .next ((Ev.start { s with wakeQ := s.wakeQ.set (wakeIdx w) .held }).judgeWake w).settle.finish := by
  simp only [exec, execWakeQualifyExpiry, runEvent, Ev.wakeExpiry, Ev.start_wakeQ, h]
  rfl

/-- A new level of a wake line is heard by its qualifier, and by the key hold for WAKE_KEY (R12, R14). -/
theorem exec_wakeLineChange (s : State) (w : WakeLine) (b : Bool) (h : b ≠ s.pins.wake[wakeIdx w]) :
    exec (.wakeLineChange w b) s = .next ((Ev.start s).wakeChange w b).finish :=
  congrArg (fun e => Host.Outcome.next (Ev.finish e)) (if_neg h)

/-- An assertion of a wake line (R12, R14). -/
theorem exec_wakeLineChange_true (s : State) (w : WakeLine) (hw : s.pins.wake[wakeIdx w] = false)
    (ht : ∀ d, s.keyHold = .timing d → s.sys = .boardOn ∨ s.sys = .panelOn) :
    exec (.wakeLineChange w true) s
      = .next { s with
          pins.wake := s.pins.wake.set (wakeIdx w) true
          wakeQ :=
            s.wakeQ.set (wakeIdx w)
              (if s.sys ≠ .starting ∧ s.wakeQ[wakeIdx w] = .idle then
                .qualifying (s.now + 1000 * (s.cfg.wake w).qualifyMs)
              else s.wakeQ[wakeIdx w])
          keyHold :=
            if w = .key ∧ s.keyHold = .idle ∧ (s.sys = .boardOn ∨ s.sys = .panelOn) then
              .timing (s.now + 1000 * s.cfg.system.keyHoldMs)
            else s.keyHold } := by
  rw [exec_wakeLineChange s w true (by simp [-Fin.getElem_fin, hw])]
  refine congrArg _ ?_
  let s1 : State := { s with pins.wake := s.pins.wake.set (wakeIdx w) true }
  have h1 : (Ev.start s1).wakeLine w true = _ := Ev.wakeLine_true _ w
  cases w with
  | key =>
    have h2 := Ev.keyHoldLook_asserted ((Ev.start s1).wakeLine .key true) (by rw [h1]; simp [Ev.setWakeQ, s1])
      (by rw [h1]; exact ht)
    have h3 : (Ev.start s).wakeChange .key true = ((Ev.start s1).wakeLine .key true).keyHoldLook := rfl
    rw [h3, h2, h1]
    simp only [true_and]
    rfl
  | ir =>
    have h3 : (Ev.start s).wakeChange .ir true = (Ev.start s1).wakeLine .ir true := rfl
    rw [h3, h1]
    rfl
  | aux =>
    have h3 : (Ev.start s).wakeChange .aux true = (Ev.start s1).wakeLine .aux true := rfl
    rw [h3, h1]
    rfl

/-- A release of a wake line (R12, R14). -/
theorem exec_wakeLineChange_false (s : State) (w : WakeLine) (hw : s.pins.wake[wakeIdx w] = true) :
    exec (.wakeLineChange w false) s
      = .next { s with
          pins.wake := s.pins.wake.set (wakeIdx w) false
          wakeQ := s.wakeQ.set (wakeIdx w) (if s.sys ≠ .starting then .idle else s.wakeQ[wakeIdx w])
          keyHold := if w = .key then .idle else s.keyHold } := by
  rw [exec_wakeLineChange s w false (by simp [-Fin.getElem_fin, hw])]
  refine congrArg _ ?_
  have h1 := Ev.wakeLine_false (Ev.start { s with pins.wake := s.pins.wake.set (wakeIdx w) false }) w
  cases w with
  | key => exact congrArg (fun e => Ev.finish (Ev.keyHoldKey e false)) h1
  | ir => exact congrArg Ev.finish h1
  | aux => exact congrArg Ev.finish h1

/-- Settles O48. -/
theorem wakeLinesAreQualified : Obligations.WakeLinesAreQualified := by
  intro s w up
  refine ⟨?_, fun hw ht => ?_, fun hw => ?_, fun d hq => ?_, fun hq => ?_⟩
  · simp [exec, execWakeLineChange, runEvent]
  · exact exec_wakeLineChange_true s w hw ht
  · exact exec_wakeLineChange_false s w hw
  · intro s1 effective g
    have heff : s1.wakeEffective = true ↔ effective := State.wakeEffective_eq_true s1
    rw [exec_wakeQualifyExpiry s w hq]
    refine ⟨fun hn => ?_, fun hy hg => ?_, fun hy hg hu => ?_⟩
    · have hj : (Ev.start s1).judgeWake w = Ev.start s1 := if_neg fun h => hn (heff.1 h)
      rw [hj, Ev.settle_quiet _ rfl rfl rfl rfl, Ev.finish_start]
    · have hj : (Ev.start s1).judgeWake w = Ev.writeTarget { Ev.start s1 with retArmed := false } g :=
        if_pos (heff.2 hy)
      rw [hj, ← hg]
      exact congrArg _ (Ev.disarm_settled s1)
    · have hj : (Ev.start s1).judgeWake w = Ev.writeTarget { Ev.start s1 with retArmed := false } g :=
        if_pos (heff.2 hy)
      rw [hj, Ev.retarget_settled s1 hg hu]
  · cases h : s.wakeQ[wakeIdx w] with
    | qualifying d => exact absurd h (hq d)
    | idle => simp [exec, execWakeQualifyExpiry, runEvent, Ev.wakeExpiry, h]
    | held => simp [exec, execWakeQualifyExpiry, runEvent, Ev.wakeExpiry, h]

end Sys2Proof.Machine

namespace Sys2Proof.Machine

/-! ### GO -/

/-- The body of a GO names its target. -/
@[simp] theorem goArg (g : Target) : (oneByte [codeIn targets g]).bind (named targets) = some g := by
  cases g <;> decide

/-- A GO is held in REST, and where its target lies above the settled state and the gate is closed (R4, R5). -/
theorem State.goGated_iff (s : State) (g0 : Target) (hs : s.sys = g0.toState) :
    s.goGated = true ↔ s.ride.state = .rest ∨ (g0.rank < s.target.rank ∧ s.gateOpen = false) := by
  unfold State.goGated State.duePlan
  cases g0 <;> cases ht : s.target <;> simp [hs, Target.toState, Target.rank, PlanId.isUp]

/-- What the write of an accepted GO leaves in the fields its reply shows (R4). -/
theorem Ev.writeTarget_shown (e : Ev) (g : Target) :
    (e.writeTarget g).sys = e.sys ∧ (e.writeTarget g).target = g ∧ (e.writeTarget g).ride = e.ride
      ∧ (e.writeTarget g).gateOpen = e.gateOpen := by
  unfold Ev.writeTarget
  split
  · rename_i h
    exact ⟨rfl, h.symm, rfl, rfl⟩
  · exact ⟨rfl, rfl, rfl, rfl⟩

/-- Outside STARTING a GO reaches its owner (R163). -/
theorem Ev.served_go (e : Ev) (tag : Byte) (g : Target) (hs : e.sys ≠ .starting) :
    e.served ⟨0x02, tag, [codeIn targets g]⟩ = e.serveGo [codeIn targets g] :=
  Ev.served_started _ _ hs

/-- A refused GO leaves the state as it is, with its reply (R4, R163). -/
theorem exec_go_refused (s : State) (tag : Byte) (g : Target) (st : Status) (hr : s.ready) (hs : s.sys ≠ .starting)
    (h : (Ev.start s).serveGo [codeIn targets g] = (Ev.start s).refuse st) :
    exec (.go tag [codeIn targets g]) s = .next (s.replied ⟨0x02, tag, [codeIn targets g]⟩ st []) := by
  refine (request_answered 0x02 tag _ s hr).trans ?_
  rw [Ev.served_go _ _ _ hs, h]
  rfl

/-- A GO in UNCONFIGURED or LOCKOUT is refused (R4). -/
theorem Ev.serveGo_wrongState (e : Ev) (g : Target) (h : e.sys = .unconfigured ∨ e.sys = .lockout) :
    e.serveGo [codeIn targets g] = e.refuse .wrongState := by
  obtain h | h := h <;> simp [Ev.serveGo, h]

/-- A GO in COMMITTED is refused (R4). -/
theorem Ev.serveGo_powerFail (e : Ev) (g g0 : Target) (hs : e.sys = g0.toState) (h : e.ride.state = .committed) :
    e.serveGo [codeIn targets g] = e.refuse .powerFail := by
  cases g0 <;> simp [Ev.serveGo, hs, h, Target.toState]

/-- A GO in a settled state outside COMMITTED is accepted (R4). -/
theorem Ev.serveGo_accepts (e : Ev) (g g0 : Target) (hs : e.sys = g0.toState) (h : e.ride.state ≠ .committed) :
    e.serveGo [codeIn targets g] = e.acceptGo g := by
  cases g0 <;> simp [Ev.serveGo, hs, h, Target.toState]

/-- A settled state is not STARTING. -/
theorem Target.toState_ne_starting (g : Target) : g.toState ≠ .starting := by
  cases g <;> decide

/-- An accepted GO replies with what its write leaves (R4). -/
theorem exec_go_accepted (s : State) (tag : Byte) (g g0 : Target) (hr : s.ready) (hs : s.sys = g0.toState)
    (hride : s.ride.state ≠ .committed) {t : State}
    (h : (Ev.writeTarget { Ev.start s with retArmed := false } g).settle.finish = t) :
    exec (.go tag [codeIn targets g]) s = .next (t.replied ⟨0x02, tag, [codeIn targets g]⟩
      (if s.ride.state = .rest ∨ (g0.rank < g.rank ∧ s.gateOpen = false) then .gated else .ok)
      [codeIn sysStates s.sys, codeIn targets g]) := by
  obtain ⟨h1, h2, h3, h4⟩ := Ev.writeTarget_shown { Ev.start s with retArmed := false } g
  generalize hx : Ev.writeTarget { Ev.start s with retArmed := false } g = x at h h1 h2 h3 h4
  have hg := State.goGated_iff x.toState g0 (h1.trans hs)
  rw [h2, h3, h4] at hg
  have hgated : x.goGated = true ↔ s.ride.state = .rest ∨ (g0.rank < g.rank ∧ s.gateOpen = false) := hg
  have haccept : (Ev.start s).acceptGo g
      = { ev := x.settle
          status := if x.goGated then .gated else .ok
          body := [codeIn sysStates x.sys, codeIn targets x.target] } := by
    rw [← hx]
    rfl
  refine (request_answered 0x02 tag _ s hr).trans ?_
  rw [Ev.served_go _ _ _ (by rw [Ev.start_sys, hs]; exact g0.toState_ne_starting), Ev.serveGo_accepts _ g g0 hs hride,
    haccept, h, h1, h2]
  simp only [hgated]
  rfl

end Sys2Proof.Machine

namespace Sys2Proof.Machine

/-! ### The engine: cuts, aborts, an arbiter that finds nothing -/

/-- An event that queued STATE and one other notice behind it: STATE stands in its place with what the event leaves. -/
theorem Ev.finish_told_then (e : Ev) {q : List Notice} {b c : NoticeBody} {k : NoticeKey} (hk : .state ≠ k)
    (h : e.notices = enqueue (enqueue q .state b) k c) (h1 : e.stDirty = true) (h2 : e.pwDirty = false) :
    e.finish = { e.toState with notices := enqueue (enqueue q .state e.stateBody) k c } := by
  rw [Ev.finish_stDirty e h1 h2, h, retake_enqueue_ne hk, retake_enqueue]

/-- The step in flight is abandoned (R64). -/
theorem Ev.abandon_eq (e : Ev) :
    e.abandon = e.upd (e.abandoned.withRun (e.run.map fun run => { run with wait := .nothing })) e.ans := by
  unfold Ev.abandon State.abandoned State.handshakeWaits
  cases e.waitOf <;> rfl

/-- A STATE notice queued before the step in flight is abandoned stands as if queued after it (R64, R168). -/
theorem State.abandoned_told (s : State) (b : NoticeBody) :
    ({ s with notices := enqueue s.notices .state b } : State).abandoned
      = { s.abandoned with notices := enqueue s.abandoned.notices .state b } := by
  have hw : ({ s with notices := enqueue s.notices .state b } : State).handshakeWaits = s.handshakeWaits := rfl
  unfold State.abandoned
  rw [hw]
  cases s.handshakeWaits
  · rfl
  · simp only [if_true, filter_enqueue (k := .state) (k' := .offPending) (by decide)]

/-- An ABORTED or CUT end of a plan other than BOARD_SNAP concerns the engine alone (R60). -/
theorem Ev.endPlan_stopped (e : Ev) (run : Run) {o : PlanOutcome} (n : Nat) (c : Cause) (ho : o = .aborted ∨ o = .cut)
    (hp : run.plan ≠ .boardSnap) :
    e.endPlan run o n c = { e.upd (e.toState.planEnded run.plan o n c) none with planEnded := true, arb := true } := by
  have hride (x : Ev) : x.rideOnPlanEnd run.plan o run.stepsDone = x := by
    obtain rfl | rfl := ho <;> cases h : run.plan <;> simp_all [Ev.rideOnPlanEnd]
  rw [Ev.endPlan_eq, hride]
  obtain rfl | rfl := ho <;> rfl

/-- Supervision arms in PANEL_ON alone (R81). -/
theorem Ev.armSupervision_elsewhere (e : Ev) (h : e.sys ≠ .panelOn) : e.armSupervision = e := by
  simp [Ev.armSupervision, h]

/-- A run of the arbiter over an engine at rest: the marks are cleared, and supervision arms after a plan's end
(R61, R81). -/
theorem Ev.arbitrate_atRest (e : Ev) (h : e.toState.atRest) :
    e.arbitrate = if e.planEnded then
        Ev.armSupervision { e with arb := false, tgtChanged := false, planEnded := false }
      else { e with arb := false, tgtChanged := false } := by
  simp only [Ev.arbitrate, Ev.runArbiter_atRest _ _ h]

/-- The same outside PANEL_ON, where supervision does not arm. -/
theorem Ev.arbitrate_atRest_elsewhere (e : Ev) (h : e.toState.atRest) (hs : e.sys ≠ .panelOn) :
    e.arbitrate = { e with arb := false, tgtChanged := false, planEnded := false } := by
  rw [Ev.arbitrate_atRest e h]
  split
  · exact Ev.armSupervision_elsewhere _ hs
  · rename_i hp
    have hp' : e.planEnded = false := by simpa using hp
    rw [← hp']

/-- Where an operation has marked a change of the target and no answer or fault action, the target is reported and the
arbiter runs (R61, R66). -/
theorem Ev.settle_target (e : Ev) (h1 : e.ans = none) (h2 : e.tgtChanged = true) {e1 : Ev}
    (h3 : ({ e.reportTarget with arb := true } : Ev).arbitrate = e1) (h4 : e1.act = none) : e.settle = e1 := by
  have hs : e.serve = e1 := by
    simp only [Ev.serve, stepFuel, Ev.runSteps_quiet _ e h1, h2, if_true]
    exact h3
  rw [Ev.settle, hs]
  simp only [Ev.applyAct, h4]

/-- A changed target ends a service plan that has no tail, before its tail (R66). -/
theorem Ev.reportTarget_ends (e : Ev) {run : Run} (ht : e.tgtChanged = true) (hr : e.run = some run)
    (hp : run.plan.isService = true) (hi : run.inTail = false) (hn : (e.cfg.plan run.plan).tailIndex = 0) :
    e.reportTarget
      = { e.upd (e.abandoned.planEnded run.plan .aborted run.current .targetChanged) none with
          tgtChanged := false, planEnded := true, arb := true } := by
  have hs : run.plan ≠ .boardSnap := by
    intro h
    simp [h, PlanId.isService] at hp
  simp only [Ev.reportTarget, ht, if_true, Ev.abortService, hr, hp, hi, Bool.not_false, Bool.and_self, hn]
  rw [Ev.endPlan_stopped _ run _ _ (.inl rfl) hs, Ev.abandon_eq]
  rfl

/-- A changed target sends a service plan that has a tail into it, here with a WAIT (R66). -/
theorem Ev.reportTarget_tail (e : Ev) {run : Run} {ms : Nat} (ht : e.tgtChanged = true) (hr : e.run = some run)
    (ha : e.ans = none) (hp : run.plan.isService = true) (hi : run.inTail = false) (hw : e.tailOpensWithWait run ms) :
    e.reportTarget
      = { e.upd (e.abandoned.withRun (some (e.tailWaiting run .aborted .targetChanged ms))) none with
          tgtChanged := false } := by
  have hb : Ev.enterTail (Ev.abandon { e with tgtChanged := false }) run .aborted .targetChanged
      = { e.upd (e.abandoned.withRun (some (e.tailWaiting run .aborted .targetChanged ms))) none with
          tgtChanged := false } := by
    rw [Ev.abandon_eq]
    let r : Option Run := e.run.map fun run => { run with wait := .nothing }
    have hw' : (e.abandoned.withRun r).tailOpensWithWait run ms := by
      unfold State.abandoned
      split <;> exact hw
    have htail : (e.abandoned.withRun r).tailWaiting run .aborted .targetChanged ms
        = e.tailWaiting run .aborted .targetChanged ms := by
      unfold State.abandoned
      split <;> rfl
    have h := Ev.enterTail_wait ({ e.upd (e.abandoned.withRun r) none with tgtChanged := false }) run .aborted
      .targetChanged hw'
    rw [← ha] at h ⊢
    exact h.trans (congrArg (fun q => ({ e.upd (e.abandoned.withRun (some q)) e.ans with tgtChanged := false } : Ev))
      htail)
  simp only [Ev.reportTarget, ht, if_true, Ev.abortService, hr, hp, hi, Bool.not_false, Bool.and_self, hw.1, if_false]
  rw [hb]
  exact Ev.runSteps_quiet _ _ rfl

end Sys2Proof.Machine

namespace Sys2Proof.Machine

/-! ### GO over a running service plan, and GO that starts BOARD_UP -/

/-- What the abandonment of the step in flight can change (R64). -/
theorem State.abandoned_eq (s : State) :
    s.abandoned = { s with
      hsMemory := if s.handshakeWaits then .abandoned else s.hsMemory
      notices :=
        if s.handshakeWaits then s.notices.filter fun n => decide (n.key ≠ .offPending) else s.notices } := by
  unfold State.abandoned
  split <;> simp [*]

/-- The event of a GO for a new target right after the write (R3, R4). -/
def Ev.goWritten (s : State) (g : Target) : Ev :=
  { ({ Ev.start s with target := g, retArmed := false } : Ev).stateNotice with tgtChanged := true }

/-- A GO for a new target writes it. -/
theorem Ev.writeTarget_new (s : State) {g : Target} (hne : s.target ≠ g) :
    Ev.writeTarget { Ev.start s with retArmed := false } g = Ev.goWritten s g :=
  if_neg (Ne.symm hne)

/-- The step in flight is abandoned right after a GO's write as it would be before it. -/
theorem Ev.goWritten_abandoned (s : State) (g : Target) :
    (Ev.goWritten s g).abandoned = { s.abandoned with
      target := g, retArmed := false
      notices := enqueue s.abandoned.notices .state ({ s with target := g } : State).stateBody } := by
  refine (State.abandoned_told { s with target := g, retArmed := false } _).trans ?_
  rw [State.abandoned_eq { s with target := g, retArmed := false }, State.abandoned_eq s]
  rfl

/-- A GO ends a service plan that has no tail, and nothing starts after it (R66). -/
theorem Ev.goWritten_ends (s : State) (g : Target) {run : Run} (hr : s.run = some run)
    (hp : run.plan.isService = true) (hi : run.inTail = false) (hn : (s.cfg.plan run.plan).tailIndex = 0)
    (hs : s.sys ≠ .panelOn) (hq : s.reqs = PendingSet.none) (hst : ({ s with target := g } : State).startable = none) :
    (Ev.goWritten s g).settle.finish
      = (({ s.abandoned with target := g, retArmed := false, run := none } : State).stateTold.planEnded run.plan
          .aborted run.current .targetChanged) := by
  have hend := Ev.reportTarget_ends (Ev.goWritten s g) (run := run) rfl hr hp hi hn
  rw [Ev.goWritten_abandoned, State.abandoned_eq s] at hend
  generalize hx : (Ev.goWritten s g).reportTarget = x at hend
  have hrest : x.toState.atRest := by
    subst hend
    exact ⟨rfl, hq, hst⟩
  have hsys : x.sys ≠ .panelOn := by
    subst hend
    exact hs
  have hact : x.act = none := by
    subst hend
    rfl
  rw [Ev.settle_target (Ev.goWritten s g) rfl rfl
    (e1 := { x with arb := false, tgtChanged := false, planEnded := false })
    (by rw [hx]; exact Ev.arbitrate_atRest_elsewhere { x with arb := true } hrest hsys) hact]
  rw [State.abandoned_eq s]
  subst hend
  exact Ev.finish_told_then _ (k := .planDone run.plan) (by simp) rfl rfl rfl

/-- A GO sends a service plan that has a tail into it, here with a WAIT (R66). -/
theorem Ev.goWritten_tail (s : State) (g : Target) {run : Run} {ms : Nat} (hr : s.run = some run)
    (hp : run.plan.isService = true) (hi : run.inTail = false) (hw : s.tailOpensWithWait run ms) :
    (Ev.goWritten s g).settle.finish
      = ({ s.abandoned with
          target := g
          retArmed := false
          run := some (s.tailWaiting run .aborted .targetChanged ms) } : State).stateTold := by
  have hend := Ev.reportTarget_tail (Ev.goWritten s g) (run := run) (ms := ms) rfl hr rfl hp hi hw
  rw [Ev.goWritten_abandoned, State.abandoned_eq s] at hend
  generalize hx : (Ev.goWritten s g).reportTarget = x at hend
  have hbusy : x.run ≠ none := by
    subst hend
    exact Option.some_ne_none _
  have hpe : x.planEnded = false ∧ x.act = none := by
    subst hend
    exact ⟨rfl, rfl⟩
  rw [Ev.settle_target (Ev.goWritten s g) rfl rfl (e1 := { x with arb := false, tgtChanged := false })
    (by rw [hx]; exact Ev.arbitrate_still { x with arb := true } hpe.1 (.inl hbusy)) hpe.2]
  rw [State.abandoned_eq s]
  subst hend
  exact Ev.finish_told _ rfl rfl rfl

/-- Settles O25. -/
theorem goWritesTheTarget : Obligations.GoWritesTheTarget := by
  intro s tag g hr
  refine ⟨fun hs => ?_, fun g0 hs => ⟨fun hride => ?_, fun hride hg => ?_, fun hride hg hu => ?_,
    fun run hride hg hrun hp hi => ⟨fun hn hsys hq hst => ?_, fun ms hw => ?_⟩⟩⟩
  · refine exec_go_refused s tag g _ hr ?_ (Ev.serveGo_wrongState _ g hs)
    obtain h | h := hs <;> simp [h]
  · exact exec_go_refused s tag g _ hr (by rw [hs]; exact g0.toState_ne_starting)
      (Ev.serveGo_powerFail _ g g0 hs hride)
  · subst hg
    exact exec_go_accepted s tag _ g0 hr hs hride (Ev.disarm_settled s)
  · exact exec_go_accepted s tag g g0 hr hs hride (Ev.retarget_settled s hg hu)
  · exact exec_go_accepted s tag g g0 hr hs hride
      ((congrArg (fun e => e.settle.finish) (Ev.writeTarget_new s hg)).trans
        (Ev.goWritten_ends s g hrun hp hi hn hsys hq hst))
  · exact exec_go_accepted s tag g g0 hr hs hride
      ((congrArg (fun e => e.settle.finish) (Ev.writeTarget_new s hg)).trans
        (Ev.goWritten_tail s g hrun hp hi hw))

/-- The start of a plan that is no snap plan and had no request, where supervision is inactive (R49). -/
theorem State.planBegun_undark (s : State) {p : PlanId} {ms : Nat} (hs : s.sup = .inactive) (hp : p.isSnap = false)
    (hq : s.reqs.put p none = s.reqs) :
    s.planBegun p ms = { s with
      run := some (s.firstWait p ((s.reqs.get p).getD .planned) ms)
      plans := s.plans.set p.idx s.plans[p.idx].atStart } := by
  unfold State.planBegun
  simp only [hq, hp, hs, reduceCtorEq, Bool.false_eq_true, if_false]

/-- A GO written in STANDBY with the gate open and the engine idle starts BOARD_UP (R5). -/
theorem Ev.goWritten_starts (s : State) (g : Target) {ms : Nat} (hsys : s.sys = .standby) (hg : g ≠ .standby)
    (hrun : s.run = none) (hq : s.reqs = PendingSet.none) (hgate : s.gateOpen = true) (hdip : s.dipSeen = false)
    (hsup : s.sup = .inactive) (hw : s.opensWithWait .boardUp ms) :
    (Ev.goWritten s g).settle.finish = { s with
      target := g
      retArmed := false
      run := some (s.firstWait .boardUp .planned ms)
      plans := s.plans.set 0 s.plans[0].atStart
      notices := enqueue s.notices .state (.state .standby g (some .boardUp)) } := by
  let x : Ev := { Ev.goWritten s g with tgtChanged := false, arb := true }
  have hst : x.startable = some .boardUp := by
    have hgate' : x.gateOpen = true := hgate
    have hsys' : x.sys = .standby := hsys
    have htgt' : x.target = g := rfl
    unfold State.startable State.duePlan
    cases g <;> simp_all
  have hreport : (Ev.goWritten s g).reportTarget = { Ev.goWritten s g with tgtChanged := false } :=
    Ev.reportTarget_unmoved _ (.inr hrun)
  have harb := Ev.arbitrate_starts x .boardUp (ms := ms) hrun (Ev.choose_startable x hq hst) (.inl hsup) (.inl hdip) hw
  rw [Ev.settle_target (Ev.goWritten s g) rfl rfl
    ((congrArg (fun e => Ev.arbitrate { e with arb := true }) hreport).trans harb) rfl,
    Ev.finish_told _ (q := s.notices) rfl rfl rfl, ← hsys]
  rw [State.planBegun_undark x.toState hsup rfl rfl]
  rfl

/-- Settles O26. -/
theorem goStartsBoardUp : Obligations.GoStartsBoardUp := by
  intro s tag g ms hr hsys htgt hg hrun hq hgate hdip hsup hw
  have hride : s.ride.state = .normal := ((State.gateOpen_iff s).1 hgate).2.1
  have hne : s.target ≠ g := fun h => hg (h.symm.trans htgt)
  have h := exec_go_accepted s tag g .standby hr hsys (by rw [hride]; decide)
    ((congrArg (fun e => e.settle.finish) (Ev.writeTarget_new s hne)).trans
      (Ev.goWritten_starts s g hsys hg hrun hq hgate hdip hsup hw))
  rw [if_neg (by simp [hride, hgate])] at h
  rw [show codeIn sysStates SysState.standby = codeIn sysStates s.sys by rw [hsys]]
  exact h

end Sys2Proof.Machine

namespace Sys2Proof.Machine

/-! ### Snap requests -/

/-- A plan that does not run and has no entry in the pending set is IDLE (R48). -/
theorem State.planStatus_idle (s : State) {p : PlanId} (h : ∀ run, s.run = some run → run.plan ≠ p)
    (hp : s.isPending p = false) : s.planStatus p = .idle := by
  unfold State.planStatus
  cases hr : s.run with
  | none => simp [hp]
  | some run => simp [h run hr, hp]

/-- A request for an IDLE snap plan makes it pending (R63). -/
theorem Ev.snapRequest_idle (e : Ev) {p : PlanId} (c : Cause) (hs : e.sys = .boardOn ∨ e.sys = .panelOn)
    (h : e.planStatus p = .idle) :
    e.snapRequest p c = e.upd { e.toState with reqs := e.reqs.put p (some c) } e.ans := by
  unfold Ev.snapRequest
  obtain hs | hs := hs <;> simp only [hs, h] <;> rfl

/-- A request for a snap plan that runs marks it merged (R63). -/
theorem Ev.snapRequest_runs (e : Ev) {p : PlanId} (c : Cause) {run : Run} (hs : e.sys = .boardOn ∨ e.sys = .panelOn)
    (hr : e.run = some run) (hp : run.plan = p) :
    e.snapRequest p c = e.setPlan p fun x => { x with merged := true } := by
  have hstatus : e.planStatus p = if run.inTail then .tail else .running := by
    simp only [State.planStatus, hr, hp, if_true]
  unfold Ev.snapRequest
  rw [hstatus]
  obtain hs | hs := hs <;> cases run.inTail <;> simp only [hs] <;> rfl

/-- With nothing pending and no snap plan running, both snap plans can be requested. -/
def State.snapsIdle (s : State) : Prop :=
  s.reqs = PendingSet.none ∧ ∀ run, s.run = some run → run.plan.isSnap = false

/-- Requests for both snap plans, both IDLE, make both pending (R63). -/
theorem Ev.snapBoth_idle (e : Ev) (c : Cause) (hs : e.sys = .boardOn ∨ e.sys = .panelOn) (h : e.snapsIdle) :
    e.snapBoth c = e.upd { e.toState with
      reqs := { PendingSet.none with panelSnap := some c, boardSnap := some c } } e.ans := by
  obtain ⟨hq, hr⟩ := h
  have hne (p : PlanId) (hp : p.isSnap = true) (run : Run) (h : e.run = some run) : run.plan ≠ p := by
    rintro rfl
    simp [hr run h] at hp
  have h1 := Ev.snapRequest_idle e c hs (State.planStatus_idle e.toState (hne .panelSnap rfl)
    (by simp [State.isPending, PendingSet.get, PendingSet.none, hq]))
  let y : Ev := e.upd { e.toState with reqs := e.reqs.put .panelSnap (some c) } e.ans
  have h2 := Ev.snapRequest_idle y c hs (State.planStatus_idle y.toState (hne .boardSnap rfl)
    (by simp [y, State.isPending, PendingSet.get, PendingSet.put, PendingSet.none, hq]))
  rw [Ev.snapBoth, h1, h2]
  simp [y, Ev.upd, PendingSet.put, hq]

/-- With both snap plans IDLE none is in hand. -/
theorem State.snapInHand_idle (s : State) (h : s.snapsIdle) : s.snapInHand = false := by
  obtain ⟨hq, hr⟩ := h
  have hne (p : PlanId) (hp : p.isSnap = true) (run : Run) (h : s.run = some run) : run.plan ≠ p := by
    rintro rfl
    simp [hr run h] at hp
  simp [State.snapInHand, State.planStatus_idle s (hne .panelSnap rfl), State.planStatus_idle s (hne .boardSnap rfl),
    State.isPending, hq, PendingSet.get, PendingSet.none]

/-- A cut plan leaves the arbiter to the pending PANEL_SNAP (R64). -/
theorem Ev.cut_eq (e : Ev) {run : Run} (hr : e.run = some run) (hs : run.plan.isSnap = false) :
    e.cut = { e.upd (e.abandoned.planEnded run.plan .cut run.current e.reqs.firstSnapCause) none with
      planEnded := true, arb := true } := by
  have hp : run.plan ≠ .boardSnap := fun h => by simp [h, PlanId.isSnap] at hs
  simp only [Ev.cut, hr, hs, Bool.false_eq_true, if_false]
  rw [Ev.endPlan_stopped _ run _ _ (.inr rfl) hp, Ev.abandon_eq]
  rfl

/-! ### The key hold -/

/-- What a key hold does first (R14): the target and the return. -/
def Ev.keyHoldTarget (e : Ev) : Ev := { (e.writeTarget .standby).reportTarget with retArmed := false }

/-- A target that is STANDBY already stays (R3). -/
theorem Ev.keyHoldTarget_kept (e : Ev) (h : e.target = .standby) (ht : e.tgtChanged = false) :
    e.keyHoldTarget = { e with retArmed := false } := by
  simp [Ev.keyHoldTarget, Ev.writeTarget, h, Ev.reportTarget, ht]

/-- A new target that aborts no service plan. -/
theorem Ev.keyHoldTarget_told (e : Ev) (h : e.target ≠ .standby) (ht : e.tgtChanged = false)
    (hr : (∃ run, e.run = some run ∧ run.plan.isService = false) ∨ e.run = none) :
    e.keyHoldTarget = ({ e with target := .standby, retArmed := false } : Ev).stateNotice := by
  let x : Ev := ({ e with target := .standby, retArmed := false } : Ev).stateNotice
  have hw : e.writeTarget .standby = { x with tgtChanged := true } := if_neg (Ne.symm h)
  have hu : ({ x with tgtChanged := true } : Ev).reportTarget = { x with tgtChanged := false } :=
    Ev.reportTarget_unmoved _ hr
  rw [Ev.keyHoldTarget, hw, hu, ← ht]
  rfl

/-- The key hold after the target (R14). -/
theorem Ev.keyHoldAct_eq (e : Ev) :
    e.keyHoldAct = ((if e.keyHoldTarget.snapInHand then e.keyHoldTarget
      else e.keyHoldTarget.openShutdown .keyHold 0).snapBoth .keyHold).takeSnaps := rfl

/-- The key hold with no snap plan in hand opens the shutdown record and requests both snap plans (R14). -/
theorem Ev.keyHoldAct_opens (e : Ev) (hs : e.keyHoldTarget.sys = .boardOn ∨ e.keyHoldTarget.sys = .panelOn)
    (h : e.keyHoldTarget.snapsIdle) :
    e.keyHoldAct = ({ e.keyHoldTarget with
      shutdown := ShutdownRec.opened .keyHold
      ride.slot := .none
      reqs := { PendingSet.none with panelSnap := some .keyHold, boardSnap := some .keyHold } } : Ev).takeSnaps := by
  rw [Ev.keyHoldAct_eq, State.snapInHand_idle _ h]
  simp only [Bool.false_eq_true, if_false]
  rw [Ev.snapBoth_idle (e.keyHoldTarget.openShutdown .keyHold 0) .keyHold hs h]
  rfl

/-- The key hold over an idle engine: PANEL_SNAP starts, BOARD_SNAP pending behind it (R14). -/
theorem Ev.keyHoldAct_idle (e : Ev) {ms : Nat} (x : Ev) (hx : e.keyHoldTarget = x)
    (hs : x.sys = .boardOn ∨ x.sys = .panelOn) (h : x.snapReady ms) :
    e.keyHoldAct = { x.upd (({ x.toState with
        shutdown := ShutdownRec.opened .keyHold, ride.slot := .none } : State).snapsBegun .keyHold ms) none with
      arb := false, tgtChanged := false, planEnded := false } := by
  obtain ⟨hrun, hq, hsup, hdip, hw⟩ := h
  have hne : x.sys ≠ .starting ∧ x.sys ≠ .unconfigured := by
    obtain h | h := hs <;> simp [h]
  subst hx
  rw [Ev.keyHoldAct_opens e hs ⟨hq, fun run hr => by simp [hrun] at hr⟩]
  let y : Ev := { e.keyHoldTarget with
    shutdown := ShutdownRec.opened .keyHold
    ride.slot := .none
    reqs := { PendingSet.none with panelSnap := some .keyHold, boardSnap := some .keyHold } }
  have htake : y.takeSnaps = y.arbitrate := by
    have hr : y.run = none := hrun
    simp only [Ev.takeSnaps, hr]
  refine htake.trans ((Ev.arbitrate_starts y .panelSnap (ms := ms) hrun ?_ hsup hdip hw).trans rfl)
  exact Ev.choose_panelSnap y hne.1 hne.2 rfl

/-- The key hold over a running plan: the plan is cut, then PANEL_SNAP starts, BOARD_SNAP pending behind it
(R14, R64). -/
theorem Ev.keyHoldAct_cuts (e : Ev) {ms : Nat} {run : Run} (x : Ev) (hx : e.keyHoldTarget = x)
    (hs : x.sys = .boardOn ∨ x.sys = .panelOn) (hr : x.run = some run) (hp : run.plan.isSnap = false)
    (h : ({ x.toState with run := none } : State).snapReady ms) :
    e.keyHoldAct = { x.upd ((({ x.abandoned with
        shutdown := ShutdownRec.opened .keyHold, ride.slot := .none } : State).planEnded run.plan .cut run.current
          .keyHold).snapsBegun .keyHold ms) none with
      arb := false, tgtChanged := false, planEnded := false } := by
  obtain ⟨hrun, hq, hsup, hdip, hw⟩ := h
  have hne : x.sys ≠ .starting ∧ x.sys ≠ .unconfigured := by
    obtain h | h := hs <;> simp [h]
  subst hx
  rw [Ev.keyHoldAct_opens e hs ⟨hq, fun run' hr' => by
    rw [hr] at hr'
    obtain rfl := Option.some.inj hr'
    exact hp⟩]
  let y : Ev := { e.keyHoldTarget with
    shutdown := ShutdownRec.opened .keyHold
    ride.slot := .none
    reqs := { PendingSet.none with panelSnap := some .keyHold, boardSnap := some .keyHold } }
  have htake : y.takeSnaps = y.cut.arbitrate := by
    have hr : y.run = some run := hr
    simp only [Ev.takeSnaps, hr, hp, Bool.false_eq_true, if_false]
  refine htake.trans ?_
  obtain ⟨m, n, hx, hy⟩ : ∃ m n, e.keyHoldTarget.abandoned
        = { e.keyHoldTarget.toState with hsMemory := m, notices := n }
      ∧ y.abandoned = { y.toState with hsMemory := m, notices := n } :=
    ⟨_, _, State.abandoned_eq _, State.abandoned_eq _⟩
  have hcut := Ev.cut_eq y hr hp
  rw [hy] at hcut
  rw [hx]
  let z : Ev := { y.upd (({ y.toState with hsMemory := m, notices := n } : State).planEnded run.plan .cut run.current
      .keyHold) none with planEnded := true, arb := true }
  refine (congrArg Ev.arbitrate hcut).trans
    ((Ev.arbitrate_starts z .panelSnap (ms := ms) rfl ?_ hsup hdip hw).trans rfl)
  exact Ev.choose_panelSnap z hne.1 hne.2 rfl

/-- The key hold with BOARD_SNAP running: BOARD_SNAP is merged and PANEL_SNAP is pending (R14, R63). -/
theorem Ev.keyHoldAct_merges (e : Ev) {run : Run} (ht : e.target = .standby) (hc : e.tgtChanged = false)
    (hs : e.sys = .boardOn ∨ e.sys = .panelOn) (hr : e.run = some run) (hp : run.plan = .boardSnap)
    (hq : e.reqs = PendingSet.none) :
    e.keyHoldAct = e.upd { e.toState with
      retArmed := false
      reqs := { PendingSet.none with panelSnap := some .keyHold }
      plans := e.plans.set 5 { e.plans[5] with merged := true } } e.ans := by
  let x : Ev := { e with retArmed := false }
  have hidle : x.planStatus .panelSnap = .idle := by
    refine State.planStatus_idle x.toState (fun run' hr' => ?_) (by
      simp [x, State.isPending, PendingSet.get, PendingSet.none, hq])
    obtain rfl := Option.some.inj (hr.symm.trans hr')
    simp [hp]
  have hhand : x.snapInHand = true := by
    have hstatus : x.planStatus .boardSnap ≠ .idle := by
      have hr' : x.run = some run := hr
      simp only [State.planStatus, hr', hp, if_true]
      split <;> simp
    simp [State.snapInHand, hstatus]
  let y : Ev := x.upd { x.toState with reqs := x.reqs.put .panelSnap (some .keyHold) } x.ans
  have hboth : x.snapBoth .keyHold = y.setPlan .boardSnap fun p => { p with merged := true } := by
    rw [Ev.snapBoth, Ev.snapRequest_idle x .keyHold hs hidle]
    exact Ev.snapRequest_runs y .keyHold hs hr hp
  have htake (z : Ev) (hz : z.run = some run) : z.takeSnaps = z := by
    simp only [Ev.takeSnaps, hz, hp, PlanId.isSnap, if_true]
  rw [Ev.keyHoldAct_eq, Ev.keyHoldTarget_kept e ht hc, if_pos hhand, hboth]
  refine (htake (y.setPlan .boardSnap _) hr).trans ?_
  simp only [Ev.setPlan, Ev.upd, y, x, hq]
  rfl

/-- The key-hold time runs out (R14). -/
theorem exec_keyHoldExpiry (s : State) {d : Nat} (h : s.keyHold = .timing d) :
    exec .keyHoldExpiry s = .next (Ev.start s).keyHoldFires.settle.finish := by
  simp only [exec, execKeyHoldExpiry, runEvent, Ev.start_keyHold, h]

/-- Outside COMMITTED the key hold acts (R14). -/
theorem Ev.keyHoldFires_acts (e : Ev) (h : e.ride.state ≠ .committed) :
    e.keyHoldFires = Ev.keyHoldAct { e with keyHold := .fired } := if_neg h

/-- Settles O49. -/
theorem keyHoldForcesOff : Obligations.KeyHoldForcesOff := by
  intro s ms
  refine ⟨fun h => ?_, fun d hd hs => ⟨fun hride => ?_, fun hride hready ht => ?_,
    fun run hride hr hp hsrv hready => ?_, fun run hride hr hp hq ht => ?_⟩⟩
  · cases hk : s.keyHold with
    | timing d => exact absurd hk (h d)
    | idle => simp only [exec, execKeyHoldExpiry, runEvent, Ev.start_keyHold, hk]; rfl
    | fired => simp only [exec, execKeyHoldExpiry, runEvent, Ev.start_keyHold, hk]; rfl
  · have hf : (Ev.start s).keyHoldFires = { Ev.start s with keyHold := .fired } := if_pos hride
    rw [exec_keyHoldExpiry s hd, hf, Ev.settle_quiet _ rfl rfl rfl rfl]
    rfl
  · let e : Ev := { Ev.start s with keyHold := .fired }
    rw [exec_keyHoldExpiry s hd, Ev.keyHoldFires_acts _ hride,
      Ev.keyHoldAct_idle e _ (Ev.keyHoldTarget_told e ht rfl (.inr hready.1)) hs hready,
      Ev.settle_quiet _ rfl rfl rfl rfl, Ev.finish_told _ (q := s.notices) rfl rfl rfl]
    rfl
  · rw [exec_keyHoldExpiry s hd, Ev.keyHoldFires_acts _ hride]
    let e : Ev := { Ev.start s with keyHold := .fired }
    by_cases ht : s.target = .standby
    · rw [Ev.keyHoldAct_cuts e _ (Ev.keyHoldTarget_kept e ht rfl) hs hr hp hready, Ev.settle_quiet _ rfl rfl rfl rfl,
        Ev.finish_clean _ rfl rfl, if_pos ht, ← ht]
      rw [State.abandoned_eq s, State.abandoned_eq { e.toState with retArmed := false }]
      rfl
    · let x : Ev := ({ e with target := .standby, retArmed := false } : Ev).stateNotice
      have hx : e.keyHoldTarget = x := Ev.keyHoldTarget_told e ht rfl (.inl ⟨run, hr, hsrv.resolve_right ht⟩)
      obtain ⟨m, n, hm, hn⟩ : ∃ m n, s.abandoned = { s with hsMemory := m, notices := n }
          ∧ x.abandoned = { x.toState with
              hsMemory := m, notices := enqueue n .state ({ e with target := .standby } : Ev).stateBody } := by
        refine ⟨_, _, State.abandoned_eq s, ?_⟩
        refine (State.abandoned_told { e.toState with target := .standby, retArmed := false } _).trans ?_
        rw [State.abandoned_eq]
        rfl
      rw [Ev.keyHoldAct_cuts e x hx hs hr hp hready, Ev.settle_quiet _ rfl rfl rfl rfl, if_neg ht, hm, hn,
        Ev.finish_told_then _ (q := n) (k := .planDone run.plan) (by simp) rfl rfl rfl]
      rfl
  · rw [exec_keyHoldExpiry s hd, Ev.keyHoldFires_acts _ hride,
      Ev.keyHoldAct_merges { Ev.start s with keyHold := .fired } ht rfl hs hr hp hq, Ev.settle_quiet _ rfl rfl rfl rfl]
    rfl

end Sys2Proof.Machine

namespace Sys2Proof.Machine

/-! ### The end of a WAIT, and the step after it -/

/-- The run with its step in flight counted and the next one at hand (R50). -/
def Run.next (run : Run) : Run :=
  { run with current := run.current + 1, stepsDone := run.stepsDone + 1, wait := .nothing }

/-- The event of the step after `run`'s step in flight, right before it begins. -/
def Ev.stepStarted (s : State) (run : Run) : Ev := (Ev.start s).upd (s.withRun (some run.next)) none

/-- The event of an answer to the step in flight, right after the answer is marked. -/
def Ev.answered (s : State) (run : Run) (a : Answer) : Ev :=
  (Ev.start s).upd (s.withRun (some { run with wait := .nothing })) (some a)

/-- An answer to the step in flight of a run in hand. -/
theorem Ev.answer_start (s : State) {run : Run} (a : Answer) (hr : s.run = some run) :
    (Ev.start s).answer a = Ev.answered s run a := by
  unfold Ev.answer Ev.setWait
  simp only [Ev.start_run, hr]
  rfl

/-- A WAIT runs out (R54). -/
theorem exec_waitStepExpiry (s : State) {run : Run} {d : Nat} (hr : s.run = some run) (hd : run.wait = .time d) :
    exec .waitStepExpiry s = .next (Ev.answered s run (.completed .none)).settle.finish := by
  have hw : (Ev.start s).waitOf = .time d := by simp [State.waitOf, hr, hd]
  simp only [exec, execWaitStepExpiry, runEvent, hw, Ev.answer_start s _ hr]

/-- After a WAIT the next step of the body begins (R50). -/
theorem Ev.runSteps_waitOver (s : State) {run : Run} (ht : run.inTail = false)
    (hl : run.current < (s.cfg.plan run.plan).bodyLast) (n : Nat) :
    Ev.runSteps (n + 1) (Ev.answered s run (.completed .none)) = Ev.runSteps n (Ev.stepStarted s run).beginStep :=
  Ev.runSteps_next n (Ev.answered s run (.completed .none)) (run := { run with wait := .nothing }) (note := .none)
    rfl rfl ⟨rfl, nofun⟩ ht hl

section
variable (s : State) {run : Run} {d : Nat} (hr : s.run = some run) (hd : run.wait = .time d)
  (ht : run.inTail = false) (hl : run.current < (s.cfg.plan run.plan).bodyLast)
include hr hd ht hl

/-- The step after a WAIT stays in progress. -/
theorem exec_waitStepExpiry_waits {t : State} (h : (Ev.stepStarted s run).beginStep = (Ev.start s).upd t none) :
    exec .waitStepExpiry s = .next t := by
  have hsteps : Ev.runSteps stepFuel (Ev.answered s run (.completed .none)) = (Ev.start s).upd t none := by
    rw [stepFuel, Ev.runSteps_waitOver s ht hl, h, Ev.runSteps_quiet _ _ rfl]
  rw [exec_waitStepExpiry s hr hd, Ev.settle_of_runSteps _ _ hsteps rfl rfl rfl]
  rfl

/-- The step after a WAIT ends at once and lets the plan go on to a WAIT. -/
theorem exec_waitStepExpiry_ends {t : State} {a : Answer} {note : Cause} {ms : Nat}
    (h : (Ev.stepStarted s run).beginStep = (Ev.start s).upd (t.withRun (some run.next)) (some a))
    (hg : t.goesOnWith run.next a note) (hw : t.waitsNext run.next ms) :
    exec .waitStepExpiry s = .next (t.passed run.next ms note) := by
  have hsteps : Ev.runSteps stepFuel (Ev.answered s run (.completed .none))
      = (Ev.start s).upd (t.passed run.next ms note) none := by
    rw [stepFuel, Ev.runSteps_waitOver s ht hl, h]
    exact Ev.runSteps_passed 38 ((Ev.start s).upd (t.withRun (some run.next)) (some a)) rfl rfl hg hw
  rw [exec_waitStepExpiry s hr hd, Ev.settle_of_runSteps _ _ hsteps rfl rfl rfl]
  rfl

/-- The step after a WAIT misses at once and the tail begins with a WAIT (R59). -/
theorem exec_waitStepExpiry_fails {c : Cause} {ms : Nat}
    (h : (Ev.stepStarted s run).beginStep = (Ev.start s).upd (s.withRun (some run.next)) (some (.missed c)))
    (hp : ¬ s.passesOver run.next) (hw : s.tailOpensWithWait run.next ms) :
    exec .waitStepExpiry s = .next { s with
      run := some { s.tailWaiting run.next .failed c ms with stepsDone := run.next.stepsDone + 1 } } := by
  let e : Ev := (Ev.start s).upd (s.withRun (some run.next)) (some (.missed c))
  have hsteps : Ev.runSteps stepFuel (Ev.answered s run (.completed .none)) = Ev.runSteps 39 e := by
    rw [stepFuel, Ev.runSteps_waitOver s ht hl, h]
  have hend : Ev.runSteps 39 e = e.upd (e.withRun (some { e.tailWaiting run.next .failed c ms with
      stepsDone := run.next.stepsDone + 1 })) none :=
    Ev.runSteps_tail 38 e rfl rfl hp ht hw
  rw [exec_waitStepExpiry s hr hd, Ev.settle_of_runSteps _ _ (hsteps.trans hend) rfl rfl rfl]
  rfl

end

end Sys2Proof.Machine

namespace Sys2Proof.Machine

/-! ### Each kind of step as it begins -/

/-- The line a LINE step names. -/
theorem StepRec.lineId_of_target (c : StepRec) (l : LineId) (h : c.target = l.idx.val) : c.lineId = l := by
  cases l <;> simp [StepRec.lineId, h, LineId.idx]

/-- The rail a RAIL_ON or RAIL_OFF step names. -/
theorem StepRec.rail_of_target (c : StepRec) (r : Rail) (h : c.target = r.val) : c.rail = r := by
  rw [StepRec.rail, h]
  exact Fin.ofNat_val_eq_self r

/-- The level a LINE step writes. -/
theorem StepRec.level_eq (c : StepRec) : c.level = if c.value = 0 then .low else .high := by
  unfold StepRec.level Level.ofBool
  by_cases h : c.value = 0 <;> simp [h]

/-- The handshake slot is taken by the down and snap plans (R129). -/
theorem Ev.slotTakes_eq (e : Ev) (p : PlanId) (o : HsOutcome) :
    e.slotTakes p o = { e with ride.slot := if p.isUp || p.isService then e.ride.slot else o } := by
  cases p <;> rfl

/-- A HANDSHAKE in STANDBY and LOCKOUT is SKIPPED (R56). -/
theorem Ev.beginHandshake_skipped (e : Ev) (n : Run) (ms : Nat) (h : e.sys = .standby ∨ e.sys = .lockout) :
    e.beginHandshake n ms = Ev.answer { e with
      hsMemory := .skipped
      ride.slot := if n.plan.isUp || n.plan.isService then e.ride.slot else .skipped } (.completed .none) := by
  unfold Ev.beginHandshake
  obtain h | h := h <;> simp only [h, Ev.slotTakes_eq]

/-- A HANDSHAKE in another state starts its deadline and queues OFF_PENDING (R56). -/
theorem Ev.beginHandshake_waits (e : Ev) (n : Run) (ms : Nat) (h1 : e.sys ≠ .standby) (h2 : e.sys ≠ .lockout) :
    e.beginHandshake n ms = (e.setWait (.handshake (e.now + 1000 * ms))).notice .offPending
      (.offPending ms n.handshakeCause) := by
  unfold Ev.beginHandshake
  split <;> simp_all

section
variable (e : Ev) {n : Run} (hr : e.run = some n)
include hr

/-- A WAIT of 0 ends at once (R54). -/
theorem Ev.beginStep_waitZero (hk : (e.stepOf n.plan n.current).kind = .wait)
    (hv : (e.stepOf n.plan n.current).value = 0) : e.beginStep = e.answer (.completed .none) := by
  simp only [Ev.beginStep, hr, hk, hv, if_true]

/-- A LINE step writes the plan level of its line (R53). -/
theorem Ev.beginStep_line (l : LineId) (hk : (e.stepOf n.plan n.current).kind = .line)
    (ht : (e.stepOf n.plan n.current).target = l.idx.val) :
    e.beginStep = (e.setPlanLevel l (if (e.stepOf n.plan n.current).value = 0 then .low else .high)).answer
      (.completed .none) := by
  simp only [Ev.beginStep, hr, hk, StepRec.lineId_of_target _ l ht, StepRec.level_eq]

/-- An AWAIT_LOCK with the lock there ends at once (R55). -/
theorem Ev.beginStep_locked (hk : (e.stepOf n.plan n.current).kind = .awaitLock) (h : e.lockLevel = true) :
    e.beginStep = e.answer (.completed .none) := by
  simp only [Ev.beginStep, hr, hk, h, if_true]

/-- An AWAIT_LOCK without the lock starts its deadline (R55). -/
theorem Ev.beginStep_unlocked (hk : (e.stepOf n.plan n.current).kind = .awaitLock) (h : e.lockLevel = false) :
    e.beginStep = e.setWait (.lock (e.now + 1000 * (e.stepOf n.plan n.current).value)) := by
  simp only [Ev.beginStep, hr, hk, h, Bool.false_eq_true, if_false]

/-- A HANDSHAKE begins by the system state (R56). -/
theorem Ev.beginStep_handshake (hk : (e.stepOf n.plan n.current).kind = .handshake) :
    e.beginStep = e.beginHandshake n (e.stepOf n.plan n.current).value := by
  simp only [Ev.beginStep, hr, hk]

/-- A RAIL_ON step asks for its rail (R40, R51). -/
theorem Ev.beginStep_railOn (r : Rail) (hk : (e.stepOf n.plan n.current).kind = .railOn)
    (ht : (e.stepOf n.plan n.current).target = r.val) :
    e.beginStep = (e.setWait (.railOn r)).enableRequest r := by
  simp only [Ev.beginStep, hr, hk, StepRec.rail_of_target _ r ht]

/-- A RAIL_OFF step lets its rail go (R39, R52). -/
theorem Ev.beginStep_railOff (r : Rail) (hk : (e.stepOf n.plan n.current).kind = .railOff)
    (ht : (e.stepOf n.plan n.current).target = r.val) :
    e.beginStep = (e.setWait (.railOff r)).offRequest r := by
  simp only [Ev.beginStep, hr, hk, StepRec.rail_of_target _ r ht]

end

/-! ### What a rail answers to the step that waits on it -/

/-- A RAIL_ON step that waits takes the answer (R40). -/
theorem Ev.answerOn_waiting (e : Ev) {r : Rail} (a : Answer) (h : e.waitOf = .railOn r) : e.answerOn r a = e.answer a :=
  if_pos h

/-- A RAIL_OFF step that waits takes the answer (R39). -/
theorem Ev.answerOff_waiting (e : Ev) {r : Rail} (a : Answer) (h : e.waitOf = .railOff r) :
    e.answerOff r a = e.answer a := if_pos h

/-- A rail's record replaced. -/
def Ev.withRail (e : Ev) (r : Rail) (y : RailRt) : Ev := { e with rails := e.rails.set r y }

/-- A change of a rail's record replaces it. -/
theorem Ev.setRail_eq (e : Ev) (r : Rail) (f : RailRt → RailRt) : e.setRail r f = e.withRail r (f e.rails[r]) := rfl

/-- The record that was written. -/
@[simp] theorem Ev.withRail_get (e : Ev) (r : Rail) (y : RailRt) : (e.withRail r y).rails[r] = y := by
  simp [Ev.withRail]

/-- The last record written stands. -/
@[simp] theorem Ev.withRail_withRail (e : Ev) (r : Rail) (y z : RailRt) :
    (e.withRail r y).withRail r z = e.withRail r z := by
  simp [Ev.withRail]

/-- A rail's record is no matter of the step in flight. -/
@[simp] theorem Ev.withRail_waitOf (e : Ev) (r : Rail) (y : RailRt) : (e.withRail r y).waitOf = e.waitOf := rfl

section
variable (e : Ev) {r : Rail} (hw : e.waitOf = .railOn r)

/-- A rail whose monitor condition is not met at the start of an attempt ramps (R26, R27). -/
theorem Ev.rampStart_ramps (hs : e.railShed r = false) (hn : e.notMetAtOnce r) :
    e.rampStart r = e.withRail r (e.rampingAt r e.rails[r] 1) := by
  let y := e.rampingAt r e.rails[r] 1
  have hmet : monitorMet (e.railCfg r).monitor y = false := by
    obtain h | h | h := hn
    · rw [h]; rfl
    · cases (e.railCfg r).monitor <;> simp [-Fin.getElem_fin, monitorMet, y, State.rampingAt, h]
    · simp [monitorMet, h, y, State.rampingAt]
  have htry : (e.withRail r y).tryOn r = e.withRail r y := by
    refine if_neg ?_
    rw [Ev.withRail_get]
    rintro ⟨_, h⟩
    exact Bool.false_ne_true (hmet.symm.trans h)
  rw [Ev.rampStart, Ev.beginAttempt, hs, if_neg Bool.false_ne_true]
  exact htry

include hw

/-- A rail that goes SHED completes the waiting RAIL_ON with HELD (R26, R40). -/
theorem Ev.rampStart_shed (hs : e.railShed r = true) :
    e.rampStart r = Ev.answer (e.withRail r { e.rails[r] with state := .shed, timer := none, clearedInDrain := false })
      (.completed .held) := by
  rw [Ev.rampStart, Ev.beginAttempt, if_pos hs, Ev.railGoShed, Ev.setRail_eq]
  exact Ev.answerOn_waiting (e.withRail r _) _ hw

/-- A rail with monitor PG and pg level HIGH goes ON at the start of an attempt (R27). -/
theorem Ev.rampStart_on (hs : e.railShed r = false) (hm : (e.railCfg r).monitor = .pg)
    (hp : e.rails[r].pgLevel = .high) :
    e.rampStart r = Ev.answer (e.withRail r { e.rampingAt r e.rails[r] 1 with
      state := .on, timer := none, winDetector := false, pgDetector := false }) (.completed .none) := by
  let y := e.rampingAt r e.rails[r] 1
  have htry : (e.withRail r y).tryOn r = (e.withRail r y).railGoOn r := by
    refine if_pos ?_
    rw [Ev.withRail_get]
    refine ⟨rfl, ?_⟩
    have hm' : ((e.withRail r y).railCfg r).monitor = .pg := hm
    rw [hm']
    exact decide_eq_true hp
  rw [Ev.rampStart, Ev.beginAttempt, hs, if_neg Bool.false_ne_true]
  refine htry.trans ?_
  rw [Ev.railGoOn, Ev.setRail_eq, Ev.withRail_withRail, Ev.withRail_get]
  exact Ev.answerOn_waiting (e.withRail r _) _ hw

end

section
variable (e : Ev) {r : Rail}

/-- What the begin of a drain writes where no detector is present (R30). -/
theorem Ev.drainStart_record (d : Dest) (h1 : e.rails[r].winDetector = false) (h2 : e.rails[r].pgDetector = false) :
    ((e.dropDetectors r).setRail r fun x => { x with
      state := .draining, dest := d, timer := e.after (e.railCfg r).drainMs, winHalf := false
      clearedInDrain := false })
      = e.withRail r (e.drainingTo r e.rails[r] d) := by
  have hd : e.dropDetectors r = e := by simp [-Fin.getElem_fin, Ev.dropDetectors, h1, h2]
  rw [hd, Ev.setRail_eq, State.drainingTo, ← h1]
  simp only [h1.trans h2.symm]
  rfl

/-- With no detector present a drain that goes on begins with the rail's record alone (R30). -/
theorem Ev.drainStart_drains (d : Dest) (h1 : e.rails[r].winDetector = false) (h2 : e.rails[r].pgDetector = false)
    (h : (e.railCfg r).monitor ≠ .pg ∨ e.rails[r].pgLevel = .high) :
    e.drainStart r d = e.withRail r (e.drainingTo r e.rails[r] d) := by
  have hgo : ¬ ((e.railCfg r).monitor = .pg ∧ e.rails[r].pgLevel = .low) := by
    rintro ⟨h3, h4⟩
    obtain h | h := h
    · exact h h3
    · exact Level.noConfusion (h.symm.trans h4)
  rw [Ev.drainStart, if_neg hgo, Ev.drainStart_record e d h1 h2]

/-- With no detector present and pg level LOW under monitor PG a drain towards OFF ends at its start, and with it a
waiting RAIL_OFF (R30, R31, R39). -/
theorem Ev.drainStart_ends (h1 : e.rails[r].winDetector = false) (h2 : e.rails[r].pgDetector = false)
    (hm : (e.railCfg r).monitor = .pg) (hp : e.rails[r].pgLevel = .low) (hw : e.waitOf = .railOff r) :
    e.drainStart r .off = Ev.answer (e.withRail r { e.drainingTo r e.rails[r] .off with state := .off, timer := none })
      (.completed .none) := by
  have hgo : (e.railCfg r).monitor = .pg ∧ e.rails[r].pgLevel = .low := ⟨hm, hp⟩
  let z := e.drainingTo r e.rails[r] .off
  have hend : (e.withRail r z).drainEnd r false
      = ((e.withRail r z).setRail r fun x => { x with state := .off, timer := none, clearedInDrain := false }).answerOff
          r (.completed .none) := by
    have hdest : (e.withRail r z).rails[r].dest = .off := by rw [Ev.withRail_get]; rfl
    have hclr : (e.withRail r z).rails[r].clearedInDrain = false := by rw [Ev.withRail_get]; rfl
    have hon : (e.withRail r z).waitOf ≠ .railOn r := by rw [Ev.withRail_waitOf, hw]; simp
    simp only [Ev.drainEnd, hdest, hclr, if_neg hon, Bool.false_eq_true, if_false]
  rw [Ev.drainStart, if_pos hgo, Ev.drainStart_record e .off h1 h2, hend, Ev.setRail_eq, Ev.withRail_withRail,
    Ev.withRail_get]
  exact Ev.answerOff_waiting (e.withRail r _) _ hw

end

/-! ### The requests of a rail step -/

section
variable (e : Ev) {r : Rail} (hw : e.waitOf = .railOn r)
include hw

/-- A request for an unused rail misses (R40). -/
theorem Ev.enableRequest_unused (hu : (e.railCfg r).used = false) : e.enableRequest r = e.answer (.missed .unused) := by
  simp only [Ev.enableRequest, hu, Bool.false_eq_true, if_false, Ev.answerOn_waiting e _ hw]

/-- A request for a rail that is ON completes (R40). -/
theorem Ev.enableRequest_on (hu : (e.railCfg r).used = true) (hx : e.rails[r].state = .on) :
    e.enableRequest r = e.answer (.completed .none) := by
  simp only [Ev.enableRequest, hu, if_true, hx, Ev.answerOn_waiting e _ hw]

/-- A request for a rail in SHED completes with HELD (R40). -/
theorem Ev.enableRequest_shed (hu : (e.railCfg r).used = true) (hx : e.rails[r].state = .shed) :
    e.enableRequest r = e.answer (.completed .held) := by
  simp only [Ev.enableRequest, hu, if_true, hx, Ev.answerOn_waiting e _ hw]

/-- A request for a FAULTED rail misses (R40). -/
theorem Ev.enableRequest_faulted (hu : (e.railCfg r).used = true) (hx : e.rails[r].state = .faulted) :
    e.enableRequest r = e.answer (.missed .latched) := by
  simp only [Ev.enableRequest, hu, if_true, hx, Ev.answerOn_waiting e _ hw]

end

/-- A request for a rail that is OFF starts a ramp (R40). -/
theorem Ev.enableRequest_off (e : Ev) {r : Rail} (hu : (e.railCfg r).used = true) (hx : e.rails[r].state = .off) :
    e.enableRequest r = e.rampStart r := by
  simp only [Ev.enableRequest, hu, if_true, hx]

/-- A request for a rail on its way waits (R40). -/
theorem Ev.enableRequest_underway (e : Ev) {r : Rail} (hu : (e.railCfg r).used = true)
    (hx : e.rails[r].state = .ramping ∨ e.rails[r].state = .draining ∨ e.rails[r].state = .retryWait) :
    e.enableRequest r = e := by
  obtain hx | hx | hx := hx <;> simp only [Ev.enableRequest, hu, if_true, hx]

/-- A rail's record with its retry count back at 0 (R39). -/
def RailRt.untried (x : RailRt) : RailRt := { x with retryCount := 0 }

section
variable (e : Ev) {r : Rail}

/-- Letting go of a rail that is OFF or FAULTED completes at once (R39). -/
theorem Ev.offRequest_ended (hw : e.waitOf = .railOff r) (hx : e.rails[r].state = .off ∨ e.rails[r].state = .faulted) :
    e.offRequest r = Ev.answer (e.withRail r e.rails[r].untried) (.completed .none) := by
  have h : e.offRequest r = (e.withRail r e.rails[r].untried).answerOff r (.completed .none) := by
    unfold Ev.offRequest
    obtain hx | hx := hx <;> rw [hx] <;> rfl
  exact h.trans (Ev.answerOff_waiting (e.withRail r _) _ hw)

/-- Letting go of a rail that runs begins its drain (R39). -/
theorem Ev.offRequest_runs (hx : e.rails[r].state = .on ∨ e.rails[r].state = .ramping) :
    e.offRequest r = (e.withRail r e.rails[r].untried).drainStart r .off := by
  unfold Ev.offRequest
  obtain hx | hx := hx <;> rw [hx] <;> rfl

/-- Letting go of a rail that runs, with no detector present: it drains to OFF (R39). -/
theorem Ev.offRequest_beginsDrain (hx : e.rails[r].state = .on ∨ e.rails[r].state = .ramping)
    (h1 : e.rails[r].winDetector = false) (h2 : e.rails[r].pgDetector = false)
    (h : (e.railCfg r).monitor ≠ .pg ∨ e.rails[r].pgLevel = .high) :
    e.offRequest r = e.withRail r (e.drainingTo r e.rails[r].untried .off) := by
  have hy : (e.withRail r e.rails[r].untried).rails[r] = e.rails[r].untried := Ev.withRail_get _ _ _
  rw [Ev.offRequest_runs e hx, Ev.drainStart_drains (e.withRail r e.rails[r].untried) .off
    (by rw [hy]; exact h1) (by rw [hy]; exact h2) (by rw [hy]; exact h), hy, Ev.withRail_withRail]
  rfl

/-- Letting go of a rail that runs, with no detector present and pg level LOW under monitor PG: the drain ends at its
start and the waiting RAIL_OFF completes (R31, R39). -/
theorem Ev.offRequest_endsDrain (hw : e.waitOf = .railOff r)
    (hx : e.rails[r].state = .on ∨ e.rails[r].state = .ramping) (h1 : e.rails[r].winDetector = false)
    (h2 : e.rails[r].pgDetector = false) (hm : (e.railCfg r).monitor = .pg) (hp : e.rails[r].pgLevel = .low) :
    e.offRequest r = Ev.answer
      (e.withRail r { e.drainingTo r e.rails[r].untried .off with state := .off, timer := none })
      (.completed .none) := by
  have hy : (e.withRail r e.rails[r].untried).rails[r] = e.rails[r].untried := Ev.withRail_get _ _ _
  rw [Ev.offRequest_runs e hx, Ev.drainStart_ends (e.withRail r e.rails[r].untried)
    (by rw [hy]; exact h1) (by rw [hy]; exact h2) hm (by rw [hy]; exact hp) hw, hy, Ev.withRail_withRail]
  rfl

/-- Letting go of a draining rail turns its drain towards OFF, unless it drains to FAULTED (R39). -/
theorem Ev.offRequest_drains (hx : e.rails[r].state = .draining) :
    e.offRequest r = e.withRail r (if e.rails[r].dest = .off ∨ e.rails[r].dest = .faulted then e.rails[r].untried
      else { e.rails[r].untried with dest := .off }) := by
  unfold Ev.offRequest
  rw [hx]
  cases hd : e.rails[r].dest <;> simp only [reduceCtorEq, or_false, false_or, if_true, if_false, Ev.setRail_eq,
    Ev.withRail_withRail, Ev.withRail_get] <;> rfl

/-- Letting go of a rail that rests takes it to OFF at once (R39). -/
theorem Ev.offRequest_rests (hw : e.waitOf = .railOff r)
    (hx : e.rails[r].state = .shed ∨ e.rails[r].state = .retryWait) :
    e.offRequest r = Ev.answer (e.withRail r { e.rails[r].untried with state := .off, timer := none })
      (.completed .none) := by
  have h : e.offRequest r = ((e.withRail r e.rails[r].untried).setRail r fun x => { x with
      state := .off, timer := none }).answerOff r (.completed .none) := by
    unfold Ev.offRequest
    obtain hx | hx := hx <;> rw [hx] <;> rfl
  rw [h, Ev.setRail_eq, Ev.withRail_withRail, Ev.withRail_get]
  exact Ev.answerOff_waiting (e.withRail r _) _ hw

end

end Sys2Proof.Machine

namespace Sys2Proof.Machine

/-! ### The end of a plan in one event -/

/-- The event of the end of a plan right after its first two actions (R60). -/
def Ev.planOver (s : State) (p : PlanId) (o : PlanOutcome) (n : Nat) (c : Cause) : Ev :=
  (Ev.start s).upd (s.planEnded p o n c) none

/-- The event of the end of `run` with the answer to its step in flight, up to the arbiter's run (R60). -/
def Ev.ended (s : State) (run : Run) (o : PlanOutcome) (n : Nat) (c : Cause) : Ev :=
  { ((Ev.planOver s run.plan o n c).stateOnEnd run.plan o).rideOnPlanEnd run.plan o (run.stepsDone + 1) with
    planEnded := true, arb := true }

/-- The end of a plan with its counted last step. -/
theorem Ev.endPlan_counted (s : State) (run : Run) (o : PlanOutcome) (n : Nat) (c : Cause) :
    ((Ev.start s).upd (s.withRun (some run.counted)) none).endPlan run.counted o n c = Ev.ended s run o n c :=
  Ev.endPlan_eq ((Ev.start s).upd (s.withRun (some run.counted)) none) run.counted o n c

/-- An answer to the step in flight is taken. -/
theorem Ev.runSteps_answer (s : State) (run : Run) (a : Answer) (m : Nat) :
    Ev.runSteps (m + 1) (Ev.answered s run a)
      = Ev.runSteps m (((Ev.start s).upd (s.withRun (some run.counted)) none).actOnAnswer run.counted a) :=
  Ev.runSteps_answered m (Ev.answered s run a) (run := { run with wait := .nothing }) rfl rfl

/-- The body's last step completes: the plan ends DONE (R50, R60). -/
theorem Ev.runSteps_done (s : State) {run : Run} (ht : run.inTail = false)
    (hl : (s.cfg.plan run.plan).bodyLast ≤ run.current) (m : Nat) :
    Ev.runSteps (m + 1) (Ev.answered s run (.completed .none))
      = Ev.runSteps m (Ev.ended s run .done s.plans[run.plan.idx].excStep s.plans[run.plan.idx].excCause) := by
  let e : Ev := (Ev.start s).upd (s.withRun (some run.counted)) none
  have hgo : e.actOnAnswer run.counted (.completed .none)
      = e.endPlan run.counted .done s.plans[run.plan.idx].excStep s.plans[run.plan.idx].excCause := by
    have h1 : ¬ (run.counted.inTail = true) := by simp [Run.counted, ht]
    have h2 : (e.cfg.plan run.counted.plan).bodyLast ≤ run.counted.current := hl
    rw [Ev.actOnAnswer, if_pos rfl, Ev.goOn, if_neg h1, if_pos h2]
    rfl
  rw [Ev.runSteps_answer, hgo, Ev.endPlan_counted]

/-- The tail's last step completes: the plan ends with the tail's outcome (R59, R60). -/
theorem Ev.runSteps_tailOver (s : State) {run : Run} (ht : run.inTail = true)
    (hl : (s.cfg.plan run.plan).stepCount ≤ run.current) (m : Nat) :
    Ev.runSteps (m + 1) (Ev.answered s run (.completed .none))
      = Ev.runSteps m (Ev.ended s run run.tailOutcome run.tailStep run.tailCause) := by
  let e : Ev := (Ev.start s).upd (s.withRun (some run.counted)) none
  have hgo : e.actOnAnswer run.counted (.completed .none)
      = e.endPlan run.counted run.tailOutcome run.tailStep run.tailCause := by
    have h1 : run.counted.inTail = true := ht
    have h2 : (e.cfg.plan run.counted.plan).stepCount ≤ run.counted.current := hl
    rw [Ev.actOnAnswer, if_pos rfl, Ev.goOn, if_pos h1, if_pos h2]
    rfl
  rw [Ev.runSteps_answer, hgo, Ev.endPlan_counted]

/-- A FAIL miss in a body without a tail: the plan ends FAILED (R59, R60). -/
theorem Ev.runSteps_failed (s : State) {run : Run} {c : Cause} (hs : ¬ s.passesOver run) (ht : run.inTail = false)
    (hn : (s.cfg.plan run.plan).tailIndex = 0) (m : Nat) :
    Ev.runSteps (m + 1) (Ev.answered s run (.missed c)) = Ev.runSteps m (Ev.ended s run .failed run.current c) := by
  let e : Ev := (Ev.start s).upd (s.withRun (some run.counted)) none
  have hgo : e.actOnAnswer run.counted (.missed c) = e.endPlan run.counted .failed run.current c :=
    Ev.actOnAnswer_failed e run.counted c hs ht hn
  rw [Ev.runSteps_answer, hgo, Ev.endPlan_counted]

/-- After the end of a plan that moves no target the arbiter runs (R60). -/
theorem Ev.settle_ended {e x y : Ev} (h : ∀ m, Ev.runSteps (m + 1) e = Ev.runSteps m x) (hans : x.ans = none)
    (htgt : x.tgtChanged = false) (harb : x.arb = true) (hy : x.arbitrate = y) (hact : y.act = none) :
    e.settle = y := by
  have hs : Ev.runSteps stepFuel e = x := (h 39).trans (Ev.runSteps_quiet _ x hans)
  have hserve : e.serve = y := by
    simp only [Ev.serve, hs, htgt, harb, Bool.false_eq_true, if_false, if_true]
    exact hy
  rw [Ev.settle, hserve]
  simp only [Ev.applyAct, hact]

/-- After the end of a plan that moves the target the target is reported and the arbiter runs (R60, R66). -/
theorem Ev.settle_retargeted {e x y : Ev} (h : ∀ m, Ev.runSteps (m + 1) e = Ev.runSteps m x) (hans : x.ans = none)
    (htgt : x.tgtChanged = true) (hy : ({ x.reportTarget with arb := true } : Ev).arbitrate = y) (hact : y.act = none) :
    e.settle = y := by
  have hs : Ev.runSteps stepFuel e = x := (h 39).trans (Ev.runSteps_quiet _ x hans)
  have hserve : e.serve = y := by
    simp only [Ev.serve, hs, htgt, if_true]
    exact hy
  rw [Ev.settle, hserve]
  simp only [Ev.applyAct, hact]

/-! ### Failed plans (R8, R9) -/

/-- A failed up plan lowers the target to the state it failed in (R8). -/
theorem Ev.upFailed_lowers (e : Ev) {g : Target} (hs : e.sys = g.toState) (hg : g.rank < e.target.rank) :
    e.upFailed = { ({ e with target := g, retArmed := false } : Ev).stateNotice with tgtChanged := true } := by
  have hw : e.writeTarget g
      = { ({ e with target := g, retArmed := false } : Ev).stateNotice with tgtChanged := true } :=
    if_neg (by rintro rfl; exact absurd hg (Nat.lt_irrefl _))
  rw [← hw]
  unfold Ev.upFailed State.duePlan
  cases g <;> cases ht : e.target <;> simp_all [Target.rank, Target.toState, SysState.toTarget, PlanId.isUp]

/-- With the target at the state no plan is due (R5). -/
theorem State.startable_reached (s : State) {g : Target} (hs : s.sys = g.toState) (hg : s.target = g) :
    s.startable = none := by
  subst hg
  unfold State.startable State.duePlan
  cases h : s.target <;> simp [hs, h, Target.toState]

/-- The end of an up plan that fails outside PANEL_ON: the target is lowered, and nothing starts (R8). -/
theorem Ev.settle_upFailed (s : State) {e : Ev} {run : Run} {n : Nat} {c : Cause} {g : Target}
    (h : ∀ m, Ev.runSteps (m + 1) e = Ev.runSteps m (Ev.ended s run .failed n c))
    (hp : run.plan = .boardUp ∨ run.plan = .panelUp) (hs : s.sys = g.toState) (hne : s.sys ≠ .panelOn)
    (hg : g.rank < s.target.rank) (hq : s.reqs = PendingSet.none) :
    e.settle.finish
      = (({ s with target := g, retArmed := false } : State).planEnded run.plan .failed n c).stateTold := by
  let z : Ev := Ev.planOver s run.plan .failed n c
  let x : Ev := { ({ z with target := g, retArmed := false } : Ev).stateNotice with
    tgtChanged := true, planEnded := true, arb := true }
  have hx : Ev.ended s run .failed n c = x := by
    have h1 : z.stateOnEnd run.plan .failed = z.upFailed := by
      obtain hp | hp := hp <;> rw [hp] <;> rfl
    have h2 (y : Ev) (k : Nat) : y.rideOnPlanEnd run.plan .failed k = y := by
      obtain hp | hp := hp <;> rw [hp] <;> rfl
    rw [Ev.ended, h1, h2, Ev.upFailed_lowers z hs hg]
  rw [hx] at h
  have hreport : x.reportTarget = { x with tgtChanged := false } := Ev.reportTarget_unmoved x (.inr rfl)
  have harb := Ev.arbitrate_atRest_elsewhere { x with tgtChanged := false, arb := true }
    ⟨rfl, hq, State.startable_reached _ hs rfl⟩ hne
  rw [Ev.settle_retargeted h rfl rfl ((congrArg (fun e => Ev.arbitrate { e with arb := true }) hreport).trans harb) rfl,
    Ev.finish_told _ (q := enqueue s.notices (.planDone run.plan)
      (.planDone .failed n c s.plans[run.plan.idx].merged)) rfl rfl rfl]
  rfl

/-- A failed PANEL_DOWN requests PANEL_SNAP, which starts (R9). -/
theorem Ev.settle_panelDownFailed (s : State) {e : Ev} {run : Run} {n ms : Nat} {c : Cause}
    (h : ∀ m, Ev.runSteps (m + 1) e = Ev.runSteps m (Ev.ended s run .failed n c)) (hp : run.plan = .panelDown)
    (hs : s.sys = .panelOn) (hready : ({ s with run := none } : State).snapReady ms) :
    e.settle.finish = (s.planEnded run.plan .failed n c).snapBegun .planFailed ms := by
  obtain ⟨-, hq, hsup, hdip, hw⟩ := hready
  let z : Ev := Ev.planOver s run.plan .failed n c
  let x : Ev := { z.upd { z.toState with reqs := s.reqs.put .panelSnap (some .planFailed) } none with
    planEnded := true, arb := true }
  have hreq : z.snapRequest .panelSnap .planFailed
      = z.upd { z.toState with reqs := s.reqs.put .panelSnap (some .planFailed) } none :=
    Ev.snapRequest_idle z .planFailed (.inr hs) (State.planStatus_idle z.toState
      (fun run h => absurd h (Option.some_ne_none run).symm) (by
        have hq' : z.reqs = PendingSet.none := hq
        simp [State.isPending, PendingSet.get, PendingSet.none, hq']))
  have hx : Ev.ended s run .failed n c = x := by
    have h1 : z.stateOnEnd run.plan .failed = z.snapRequest .panelSnap .planFailed := by rw [hp]; rfl
    have h2 (y : Ev) (k : Nat) : y.rideOnPlanEnd run.plan .failed k = y := by rw [hp]; rfl
    rw [Ev.ended, h1, h2, hreq]
  rw [hx] at h
  have hc : x.choose = (x, some .panelSnap) :=
    Ev.choose_panelSnap x (by rw [show x.sys = .panelOn from hs]; decide)
      (by rw [show x.sys = .panelOn from hs]; decide) rfl
  rw [Ev.settle_ended h rfl rfl rfl (Ev.arbitrate_starts x .panelSnap (ms := ms) rfl hc hsup hdip hw) rfl,
    Ev.finish_clean _ rfl rfl]
  have hput : x.reqs.put .panelSnap none = s.reqs := by
    have hq' : s.reqs = PendingSet.none := hq
    simp [x, PendingSet.put, PendingSet.none, hq']
  simp only [Ev.upd_toState, State.planBegun, hput]
  rfl

/-- The record a BOARD_DOWN run writes at its end (R129). -/
theorem Ev.writeByDown_eq (e : Ev) (k : Nat) : e.writeByDown k = e.upd (e.downRecorded k) e.ans := by
  unfold Ev.writeByDown State.downRecorded
  split <;> rfl

/-- The record a BOARD_SNAP run completes at its end (R129). -/
theorem Ev.completeBySnap_eq (e : Ev) (k : Nat) : e.completeBySnap k = e.upd (e.snapRecorded k) e.ans := by
  have hb : (e.shutdown.isOpen || !e.shutdown.resetSeenPin) = true
      ↔ e.shutdown.isOpen = true ∨ e.shutdown.resetSeenPin = false := by simp
  unfold Ev.completeBySnap State.snapRecorded
  by_cases h : e.shutdown.isOpen = true ∨ e.shutdown.resetSeenPin = false
  · rw [if_pos (hb.2 h), if_pos h]
    rfl
  · rw [if_neg (mt hb.1 h), if_neg h]
    rfl

end Sys2Proof.Machine

namespace Sys2Proof.Machine

/-! ### The shutdown record at the end of a plan -/

/-- The state with the shutdown record and the handshake slot replaced. -/
def State.withShutdown (s : State) (d : ShutdownRec) (slot : HsOutcome) : State :=
  { s with shutdown := d, ride.slot := slot }

/-- What BOARD_DOWN's end records depends on the record and the slot alone (R129). -/
theorem State.downRecorded_shape (s : State) (k : Nat) :
    ∃ d slot, ∀ t : State, t.shutdown = s.shutdown → t.ride.slot = s.ride.slot →
      t.downRecorded k = t.withShutdown d slot := by
  refine ⟨(s.downRecorded k).shutdown, (s.downRecorded k).ride.slot, fun t h1 h2 => ?_⟩
  unfold State.downRecorded
  rw [h1, h2]
  split
  · rw [← h1, ← h2]
    rfl
  · rfl

/-- What BOARD_SNAP's end records depends on the record and the slot alone (R129). -/
theorem State.snapRecorded_shape (s : State) (k : Nat) :
    ∃ d slot, ∀ t : State, t.shutdown = s.shutdown → t.ride.slot = s.ride.slot →
      t.snapRecorded k = t.withShutdown d slot := by
  refine ⟨(s.snapRecorded k).shutdown, (s.snapRecorded k).ride.slot, fun t h1 h2 => ?_⟩
  unfold State.snapRecorded
  rw [h1, h2]
  split
  · rfl
  · rw [← h1, ← h2]
    rfl

/-- A failed BOARD_DOWN requests both snap plans, and PANEL_SNAP starts; the record is written (R9, R129). -/
theorem Ev.settle_boardDownFailed (s : State) {e : Ev} {run : Run} {n ms : Nat} {c : Cause}
    (h : ∀ m, Ev.runSteps (m + 1) e = Ev.runSteps m (Ev.ended s run .failed n c)) (hp : run.plan = .boardDown)
    (hs : s.sys = .boardOn) (hready : ({ s with run := none } : State).snapReady ms) :
    e.settle.finish
      = ((s.downRecorded (run.stepsDone + 1)).planEnded run.plan .failed n c).snapsBegun .planFailed ms := by
  obtain ⟨-, hq, hsup, hdip, hw⟩ := hready
  obtain ⟨d, slot, hrec⟩ := s.downRecorded_shape (run.stepsDone + 1)
  let z : Ev := Ev.planOver s run.plan .failed n c
  let t : State := { z.toState with
    reqs := { PendingSet.none with panelSnap := some .planFailed, boardSnap := some .planFailed } }
  let x : Ev := { z.upd (t.withShutdown d slot) none with planEnded := true, arb := true }
  have hreq : z.snapBoth .planFailed = z.upd t none :=
    Ev.snapBoth_idle z .planFailed (.inl hs) ⟨hq, fun run h => absurd h (Option.some_ne_none run).symm⟩
  have hx : Ev.ended s run .failed n c = x := by
    have h1 : z.stateOnEnd run.plan .failed = z.snapBoth .planFailed := by rw [hp]; rfl
    have h2 (y : Ev) (k : Nat) : y.rideOnPlanEnd run.plan .failed k = y.writeByDown k := by rw [hp]; rfl
    rw [Ev.ended, h1, h2, hreq, Ev.writeByDown_eq, hrec (z.upd t none).toState rfl rfl]
    rfl
  rw [hx] at h
  have hc : x.choose = (x, some .panelSnap) :=
    Ev.choose_panelSnap x (by rw [show x.sys = .boardOn from hs]; decide)
      (by rw [show x.sys = .boardOn from hs]; decide) rfl
  rw [Ev.settle_ended h rfl rfl rfl (Ev.arbitrate_starts x .panelSnap (ms := ms) rfl hc hsup hdip hw) rfl,
    Ev.finish_clean _ rfl rfl, hrec s rfl rfl]
  rfl

/-! ### Plans that end DONE -/

/-- A state move at the end of a plan, where no dip is seen or ride-through is not armed there (R7, R115). -/
theorem Ev.stateOnEnd_moves (e : Ev) (p : PlanId) {x : SysState} (h : e.stateOnDone p = e.setSys x) (hx : x ≠ e.sys)
    (hk : e.keyHold = .idle) (hkey : (x ≠ .boardOn ∧ x ≠ .panelOn) ∨ e.pins.wake[wakeIdx .key] = false)
    (hdip : e.dipSeen = false ∨ (e.run = none ∧ x = .standby)) :
    e.stateOnEnd p .done = ({ e with sys := x } : Ev).stateNotice := by
  have h1 : e.stateOnEnd p .done = (e.stateOnDone p).judgeDip := rfl
  rw [h1, h, Ev.setSys_eq e x hx hk hkey]
  obtain hdip | ⟨hr, rfl⟩ := hdip
  · exact Ev.judgeDip_none _ (.inl hdip)
  · refine Ev.judgeDip_unarmed _ ?_
    have hr' : ({ e with sys := .standby } : Ev).stateNotice.run = none := hr
    simp only [State.rideArmed, State.engineIdle, hr']
    rfl

/-- A plan that ends with a STATE notice leaves an engine at rest outside PANEL_ON: nothing starts (R60, R61). -/
theorem Ev.settle_movedToRest {e x : Ev} {q : List Notice} {b : NoticeBody}
    (h : ∀ m, Ev.runSteps (m + 1) e = Ev.runSteps m x) (hans : x.ans = none) (htgt : x.tgtChanged = false)
    (harb : x.arb = true) (hact : x.act = none) (hrest : x.atRest) (hsys : x.sys ≠ .panelOn)
    (hq : x.notices = enqueue q .state b) (hst : x.stDirty = true) (hpw : x.pwDirty = false) :
    e.settle.finish = { x.toState with notices := enqueue q .state x.stateBody } := by
  rw [Ev.settle_ended h hans htgt harb (Ev.arbitrate_atRest_elsewhere x hrest hsys) hact]
  exact Ev.finish_told _ hq hst hpw

/-- The end of BOARD_SNAP outside COMMITTED completes the record, and no more (R124, R129). -/
theorem Ev.rideOnPlanEnd_boardSnap (e : Ev) {p : PlanId} {k : Nat} {d : ShutdownRec} {slot : HsOutcome}
    (hp : p = .boardSnap) (hrec : e.snapRecorded k = e.withShutdown d slot) (hride : e.ride.state ≠ .committed) :
    e.rideOnPlanEnd p .done k = e.upd (e.withShutdown d slot) e.ans := by
  subst hp
  have h : e.completeBySnap k = e.upd (e.withShutdown d slot) e.ans := by rw [Ev.completeBySnap_eq, hrec]
  simp only [Ev.rideOnPlanEnd, h]
  exact if_neg hride

/-- LOCKOUT is entered with the target at STANDBY and no key hold timed (R10, R74). -/
theorem Ev.enterLockout_eq (e : Ev) (hs : .lockout ≠ e.sys) (hk : e.keyHold = .idle) (ht : e.target = .standby) :
    e.enterLockout = { ({ e with sys := .lockout } : Ev).stateNotice with
      retVal := none
      retArmed := false
      wakeQ := Vector.replicate 3 .idle
      planLevels := e.planLevels.set 5 .low } := by
  let y : Ev := ({ e with sys := .lockout } : Ev).stateNotice
  have h1 : (e.setSys .lockout).writeTarget .standby = y := by
    rw [Ev.setSys_eq e .lockout hs hk (.inl ⟨by decide, by decide⟩)]
    exact if_pos ht.symm
  have hk' : y.keyHold = .idle := hk
  simp only [Ev.enterLockout, h1, hk']
  rw [← hk']
  rfl

section
variable (s : State) {e : Ev} {run : Run} {n : Nat} {c : Cause}
  (h : ∀ m, Ev.runSteps (m + 1) e = Ev.runSteps m (Ev.ended s run .done n c))
include h

/-- BOARD_UP, PANEL_DOWN and a PANEL_SNAP from PANEL_ON end in BOARD_ON (R7). -/
theorem Ev.settle_toBoardOn (hp : run.plan = .boardUp ∧ s.sys = .standby ∨ run.plan = .panelDown ∧ s.sys = .panelOn
      ∨ run.plan = .panelSnap ∧ s.sys = .panelOn)
    (hk : s.keyHold = .idle) (ht : s.target = .boardOn) (hq : s.reqs = PendingSet.none)
    (hkey : s.pins.wake[wakeIdx .key] = false) (hdip : s.dipSeen = false) :
    e.settle.finish = (({ s with sys := .boardOn } : State).planEnded run.plan .done n c).stateTold := by
  let z : Ev := Ev.planOver s run.plan .done n c
  have hmove : z.stateOnDone run.plan = z.setSys .boardOn ∧ SysState.boardOn ≠ z.sys
      ∧ ∀ (y : Ev) (k : Nat), y.rideOnPlanEnd run.plan .done k = y := by
    have hsys : z.sys = s.sys := rfl
    obtain ⟨hp, hs⟩ | ⟨hp, hs⟩ | ⟨hp, hs⟩ := hp <;> rw [hp, hsys, hs]
    · exact ⟨rfl, by decide, fun _ _ => rfl⟩
    · exact ⟨rfl, by decide, fun _ _ => rfl⟩
    · exact ⟨if_pos hs, by decide, fun _ _ => rfl⟩
  obtain ⟨h1, h2, h3⟩ := hmove
  rw [Ev.ended, Ev.stateOnEnd_moves z run.plan h1 h2 hk (.inr hkey) (.inl hdip), h3] at h
  rw [Ev.settle_movedToRest h (q := enqueue s.notices (.planDone run.plan)
    (.planDone .done n c s.plans[run.plan.idx].merged)) rfl rfl rfl rfl
    ⟨rfl, hq, State.startable_reached _ (g := .boardOn) rfl ht⟩
    (show SysState.boardOn ≠ .panelOn by decide) rfl rfl rfl]
  rfl

/-- BOARD_DOWN ends in STANDBY with its record (R7, R129). -/
theorem Ev.settle_boardDown (hp : run.plan = .boardDown) (hs : s.sys = .boardOn) (hk : s.keyHold = .idle)
    (ht : s.target = .standby) (hq : s.reqs = PendingSet.none) :
    e.settle.finish = (({ s.downRecorded (run.stepsDone + 1) with sys := .standby } : State).planEnded run.plan .done n
      c).stateTold := by
  obtain ⟨d, slot, hrec⟩ := s.downRecorded_shape (run.stepsDone + 1)
  let z : Ev := Ev.planOver s run.plan .done n c
  have h1 : z.stateOnDone run.plan = z.setSys .standby := by rw [hp]; rfl
  have h2 (y : Ev) (k : Nat) : y.rideOnPlanEnd run.plan .done k = y.writeByDown k := by rw [hp]; rfl
  let y : Ev := ({ z with sys := .standby } : Ev).stateNotice
  have h3 : z.stateOnEnd run.plan .done = y := Ev.stateOnEnd_moves z run.plan h1
    (by rw [show z.sys = .boardOn from hs]; decide) hk (.inl ⟨by decide, by decide⟩) (.inr ⟨rfl, rfl⟩)
  rw [Ev.ended, h3, h2, Ev.writeByDown_eq, hrec y.toState rfl rfl] at h
  rw [Ev.settle_movedToRest h (q := enqueue s.notices (.planDone run.plan)
    (.planDone .done n c s.plans[run.plan.idx].merged)) rfl rfl rfl rfl
    ⟨rfl, hq, State.startable_reached _ (g := .standby) rfl ht⟩
    (show SysState.standby ≠ .panelOn by decide) rfl rfl rfl, hrec s rfl rfl]
  rfl

/-- BOARD_SNAP ends in STANDBY with its record where no lockout latch stands (R10, R129). -/
theorem Ev.settle_boardSnap (hp : run.plan = .boardSnap) (hs : s.sys = .boardOn) (hk : s.keyHold = .idle)
    (ht : s.target = .standby) (hq : s.reqs = PendingSet.none) (hride : s.ride.state ≠ .committed)
    (hlock : s.anyLockout = false) :
    e.settle.finish = (({ s.snapRecorded (run.stepsDone + 1) with sys := .standby } : State).planEnded run.plan .done n
      c).stateTold := by
  obtain ⟨d, slot, hrec⟩ := s.snapRecorded_shape (run.stepsDone + 1)
  let z : Ev := Ev.planOver s run.plan .done n c
  have h1 : z.stateOnDone run.plan = z.setSys .standby := by
    rw [hp]
    exact if_neg (by rw [show z.anyLockout = false from hlock]; exact Bool.false_ne_true)
  let y : Ev := ({ z with sys := .standby } : Ev).stateNotice
  have h3 : z.stateOnEnd run.plan .done = y := Ev.stateOnEnd_moves z run.plan h1
    (by rw [show z.sys = .boardOn from hs]; decide) hk (.inl ⟨by decide, by decide⟩) (.inr ⟨rfl, rfl⟩)
  rw [Ev.ended, h3, Ev.rideOnPlanEnd_boardSnap y hp (by exact hrec y.toState rfl rfl) hride] at h
  rw [Ev.settle_movedToRest h (q := enqueue s.notices (.planDone run.plan)
    (.planDone .done n c s.plans[run.plan.idx].merged)) rfl rfl rfl rfl
    ⟨rfl, hq, State.startable_reached _ (g := .standby) rfl ht⟩
    (show SysState.standby ≠ .panelOn by decide) rfl rfl rfl, hrec s rfl rfl]
  rfl

/-- BOARD_SNAP ends in LOCKOUT with its record while a lockout latch stands (R10, R74, R157). -/
theorem Ev.settle_boardSnapLocked (hp : run.plan = .boardSnap) (hs : s.sys = .boardOn) (hk : s.keyHold = .idle)
    (ht : s.target = .standby) (hq : s.reqs = PendingSet.none) (hride : s.ride.state ≠ .committed)
    (hlock : s.anyLockout = true) :
    e.settle.finish = (({ s.snapRecorded (run.stepsDone + 1) with
      sys := .lockout, retVal := none, retArmed := false, wakeQ := Vector.replicate 3 .idle
      planLevels := s.planLevels.set 5 .low } : State).planEnded run.plan .done n c).stateTold := by
  obtain ⟨d, slot, hrec⟩ := s.snapRecorded_shape (run.stepsDone + 1)
  let z : Ev := Ev.planOver s run.plan .done n c
  let y : Ev := { ({ z with sys := .lockout } : Ev).stateNotice with
    retVal := none, retArmed := false, wakeQ := Vector.replicate 3 .idle, planLevels := s.planLevels.set 5 .low }
  have h3 : z.stateOnEnd run.plan .done = y := by
    have hlocked : z.enterLockout = y := Ev.enterLockout_eq z (by rw [show z.sys = .boardOn from hs]; decide) hk ht
    have hdone : z.stateOnDone run.plan = y := by
      rw [hp]
      exact (if_pos hlock).trans hlocked
    have hdip : y.judgeDip = y := Ev.judgeDip_unarmed y rfl
    exact (congrArg Ev.judgeDip hdone).trans hdip
  rw [Ev.ended, h3, Ev.rideOnPlanEnd_boardSnap y hp (by exact hrec y.toState rfl rfl) hride] at h
  rw [Ev.settle_movedToRest h (q := enqueue s.notices (.planDone run.plan)
    (.planDone .done n c s.plans[run.plan.idx].merged)) rfl rfl rfl rfl
    ⟨rfl, hq, rfl⟩ (show SysState.lockout ≠ .panelOn by decide) rfl rfl rfl, hrec s rfl rfl]
  rfl

end

end Sys2Proof.Machine

namespace Sys2Proof.Machine

/-! ### Ends after which a plan starts, a request goes, or supervision watches -/

/-- Supervision arms in PANEL_ON over an idle engine, and watches a link that is locked (R81). -/
theorem Ev.armSupervision_watches (e : Ev) (hsup : e.sup = .inactive) (hs : e.sys = .panelOn) (hr : e.run = none)
    (hl : e.lockLevel = true) : e.armSupervision = e.enterWatching := by
  rw [Ev.armSupervision, if_pos ⟨hsup, hs, by rw [hr]; rfl⟩, if_pos hl]

/-- A pending PANEL_CARE is withdrawn in PANEL_ON (R62). -/
theorem Ev.withdrawService_panelCare (e : Ev) {c : Cause} (hs : e.sys = .panelOn) (hr : e.run = none)
    (hq : e.reqs = { PendingSet.none with panelCare := some c }) :
    e.withdrawService .panelCare
      = e.upd (({ e.toState with reqs := PendingSet.none } : State).planEnded .panelCare .aborted 0 .stateChanged)
          e.ans := by
  have hdue : (e.isPending .panelCare && !e.allowsService .panelCare) = true := by
    simp [State.isPending, PendingSet.get, State.allowsService, hq, hs]
  have hput : e.reqs.put .panelCare none = PendingSet.none := by rw [hq]; rfl
  unfold Ev.withdrawService
  rw [if_pos hdue, hput]
  simp only [Ev.notice, Ev.setPlan, State.planEnded, Ev.upd, Fin.getElem_fin, Vector.getElem_set_self, hr]

/-- The arbiter in PANEL_ON with PANEL_CARE alone pending withdraws it and picks nothing (R61, R62). -/
theorem Ev.choose_withdraws (e : Ev) {c : Cause} (hs : e.sys = .panelOn) (ht : e.target = .panelOn) (hr : e.run = none)
    (hq : e.reqs = { PendingSet.none with panelCare := some c }) :
    e.choose = (e.upd (({ e.toState with reqs := PendingSet.none } : State).planEnded .panelCare .aborted 0
      .stateChanged) e.ans, none) := by
  have hstart : e.startable = none := State.startable_reached e.toState (g := .panelOn) hs ht
  have h1 : e.isPending .panelSnap = false := by rw [State.isPending, hq]; rfl
  have h2 : e.isPending .boardSnap = false := by rw [State.isPending, hq]; rfl
  unfold Ev.choose
  rw [hs]
  simp only [h1, h2, hstart, Bool.false_eq_true, if_false, Ev.withdrawService_panelCare e hs hr hq]
  rfl

/-- The start of BOARD_SNAP where supervision is inactive and nothing else is pending (R49, R77). -/
theorem State.planBegun_boardSnap (s : State) {c : Cause} {ms : Nat} (hsup : s.sup = .inactive)
    (hq : s.reqs = { PendingSet.none with boardSnap := some c }) :
    s.planBegun .boardSnap ms = { s with
      run := some (s.firstWait .boardSnap c ms)
      plans := s.plans.set 5 s.plans[5].atStart
      reqs := PendingSet.none
      pulse := .idle } := by
  have hwatch : (if s.sup = .watching then Stopwatch.stopped (s.countedUs s.watch) else s.watch) = s.watch :=
    if_neg (by rw [hsup]; decide)
  unfold State.planBegun
  rw [hwatch, hq, ← hsup]
  rfl

/-- The end of a service plan where no dip is seen, before the arbiter's run (R7, R60). -/
theorem Ev.ended_service (s : State) {run : Run} {n : Nat} {c : Cause} (hp : run.plan.isService = true)
    (hdip : s.dipSeen = false) :
    Ev.ended s run .done n c = { Ev.planOver s run.plan .done n c with planEnded := true, arb := true } := by
  let z : Ev := Ev.planOver s run.plan .done n c
  have hstay : z.stateOnDone run.plan = z ∧ ∀ (y : Ev) (k : Nat), y.rideOnPlanEnd run.plan .done k = y := by
    generalize run.plan = p at hp z
    cases p <;> simp_all [PlanId.isService, Ev.stateOnDone, Ev.rideOnPlanEnd]
  have h1 : z.stateOnEnd run.plan .done = z :=
    (congrArg Ev.judgeDip hstay.1).trans (Ev.judgeDip_none z (.inl hdip))
  rw [Ev.ended, h1, hstay.2]

section
variable (s : State) {e : Ev} {run : Run} {n : Nat} {c : Cause}
  (h : ∀ m, Ev.runSteps (m + 1) e = Ev.runSteps m (Ev.ended s run .done n c))
include h

/-- A service plan's end leaves the state, and where nothing is due the engine stays idle (R7, R60). -/
theorem Ev.settle_service (hp : run.plan.isService = true) {g : Target} (hs : s.sys = g.toState) (hg : s.target = g)
    (hne : s.sys ≠ .panelOn) (hq : s.reqs = PendingSet.none) (hdip : s.dipSeen = false) :
    e.settle.finish = s.planEnded run.plan .done n c := by
  rw [Ev.ended_service s hp hdip] at h
  rw [Ev.settle_ended h rfl rfl rfl
    (Ev.arbitrate_atRest_elsewhere _ ⟨rfl, hq, State.startable_reached _ hs hg⟩ hne) rfl]
  exact Ev.finish_clean _ rfl rfl

/-- A service plan's end in PANEL_ON: supervision watches the locked link (R81). -/
theorem Ev.settle_serviceWatched (hp : run.plan.isService = true) (hs : s.sys = .panelOn) (ht : s.target = .panelOn)
    (hq : s.reqs = PendingSet.none) (hdip : s.dipSeen = false) (hsup : s.sup = .inactive) (hl : s.lockLevel = true) :
    e.settle.finish = { s.planEnded run.plan .done n c with sup := .watching, watch := .running s.now } := by
  rw [Ev.ended_service s hp hdip] at h
  let x : Ev := { Ev.planOver s run.plan .done n c with planEnded := true, arb := true }
  have harb : x.arbitrate = Ev.enterWatching { x with arb := false, tgtChanged := false, planEnded := false } :=
    ((Ev.arbitrate_atRest x ⟨rfl, hq, State.startable_reached _ (g := .panelOn) hs ht⟩).trans (if_pos rfl)).trans
      (Ev.armSupervision_watches _ hsup hs rfl hl)
  rw [Ev.settle_ended (x := x) h rfl rfl rfl harb rfl]
  exact Ev.finish_clean _ rfl rfl

/-- PANEL_UP ends in PANEL_ON: a pending PANEL_CARE is withdrawn and supervision watches the locked link (R7, R62,
R81). -/
theorem Ev.settle_panelUp (hp : run.plan = .panelUp) (hs : s.sys = .boardOn) (hk : s.keyHold = .idle)
    (ht : s.target = .panelOn) {c' : Cause} (hq : s.reqs = { PendingSet.none with panelCare := some c' })
    (hkey : s.pins.wake[wakeIdx .key] = false) (hdip : s.dipSeen = false) (hsup : s.sup = .inactive)
    (hl : s.lockLevel = true) :
    e.settle.finish = (({ (({ s with sys := .panelOn } : State).planEnded run.plan .done n c).stateTold with
      reqs := PendingSet.none, sup := .watching, watch := .running s.now } : State).planEnded .panelCare .aborted 0
        .stateChanged) := by
  let z : Ev := Ev.planOver s run.plan .done n c
  let x : Ev := { ({ z with sys := .panelOn } : Ev).stateNotice with planEnded := true, arb := true }
  have hx : Ev.ended s run .done n c = x := by
    have h1 : z.stateOnEnd run.plan .done = ({ z with sys := .panelOn } : Ev).stateNotice :=
      Ev.stateOnEnd_moves z run.plan (x := .panelOn) (by rw [hp]; rfl)
        (by rw [show z.sys = .boardOn from hs]; decide) hk (.inr hkey) (.inl hdip)
    have h2 (y : Ev) (k : Nat) : y.rideOnPlanEnd run.plan .done k = y := by rw [hp]; rfl
    rw [Ev.ended, h1, h2]
  rw [hx] at h
  let w : Ev := x.upd (({ x.toState with reqs := PendingSet.none } : State).planEnded .panelCare .aborted 0
    .stateChanged) x.ans
  have hrun : Ev.runArbiter planFuel x = w := by
    have hi : x.engineIdle = true := rfl
    rw [planFuel, Ev.runArbiter, if_pos hi, Ev.choose_withdraws x rfl ht rfl hq]
  have harb : x.arbitrate = Ev.enterWatching { w with arb := false, tgtChanged := false, planEnded := false } := by
    have h1 : x.arbitrate = Ev.armSupervision { w with arb := false, tgtChanged := false, planEnded := false } := by
      simp only [Ev.arbitrate, hrun]
      exact if_pos rfl
    exact h1.trans (Ev.armSupervision_watches _ hsup rfl rfl hl)
  rw [Ev.settle_ended h rfl rfl rfl harb rfl]
  refine (Ev.finish_told_then _ (k := .planDone .panelCare) (by simp) (q := enqueue s.notices (.planDone run.plan)
    (.planDone .done n c s.plans[run.plan.idx].merged)) rfl rfl rfl).trans ?_
  rfl

/-- PANEL_SNAP ends in BOARD_ON from PANEL_ON, and the pending BOARD_SNAP starts (R7, R61). -/
theorem Ev.settle_panelSnapMoved (hp : run.plan = .panelSnap) (hs : s.sys = .panelOn) (hk : s.keyHold = .idle)
    {c' : Cause} {ms : Nat} (hq : s.reqs = { PendingSet.none with boardSnap := some c' }) (hsup : s.sup = .inactive)
    (hkey : s.pins.wake[wakeIdx .key] = false) (hdip : s.dipSeen = false) (hw : s.opensWithWait .boardSnap ms) :
    let t := ({ s with sys := .boardOn } : State).planEnded run.plan .done n c
    e.settle.finish = ({ t with
      run := some (s.firstWait .boardSnap c' ms), plans := t.plans.set 5 t.plans[5].atStart, reqs := PendingSet.none
      pulse := .idle } : State).stateTold := by
  let z : Ev := Ev.planOver s run.plan .done n c
  let x : Ev := { ({ z with sys := .boardOn } : Ev).stateNotice with planEnded := true, arb := true }
  have hx : Ev.ended s run .done n c = x := by
    have h1 : z.stateOnEnd run.plan .done = ({ z with sys := .boardOn } : Ev).stateNotice :=
      Ev.stateOnEnd_moves z run.plan (x := .boardOn) (by rw [hp]; exact if_pos hs)
        (by rw [show z.sys = .panelOn from hs]; decide) hk (.inr hkey) (.inl hdip)
    have h2 (y : Ev) (k : Nat) : y.rideOnPlanEnd run.plan .done k = y := by rw [hp]; rfl
    rw [Ev.ended, h1, h2]
  rw [hx] at h
  have hc : x.choose = (x, some .boardSnap) := by
    have hq' : x.reqs = { PendingSet.none with boardSnap := some c' } := hq
    refine Ev.choose_boardSnap x (show SysState.boardOn ≠ .starting by decide)
      (show SysState.boardOn ≠ .unconfigured by decide) ?_ ?_ <;> rw [State.isPending, hq'] <;> rfl
  have hcfg : x.cfg = s.cfg := by
    simp only [State.cfg, hs]
    rfl
  have hw' : x.opensWithWait .boardSnap ms := by
    unfold State.opensWithWait State.stepOf at hw ⊢
    rw [hcfg]
    exact hw
  rw [Ev.settle_ended h rfl rfl rfl
      (Ev.arbitrate_starts x .boardSnap (ms := ms) rfl hc (.inl hsup) (.inl hdip) hw') rfl,
    State.planBegun_boardSnap x.toState hsup hq]
  exact Ev.finish_told _ (q := enqueue s.notices (.planDone run.plan)
    (.planDone .done n c s.plans[run.plan.idx].merged)) rfl rfl rfl

/-- PANEL_SNAP ends elsewhere without a state change, and the pending BOARD_SNAP starts (R7, R61). -/
theorem Ev.settle_panelSnapStays (hp : run.plan = .panelSnap)
    (hs : s.sys = .standby ∨ s.sys = .boardOn ∨ s.sys = .lockout)
    {c' : Cause} {ms : Nat} (hq : s.reqs = { PendingSet.none with boardSnap := some c' }) (hsup : s.sup = .inactive)
    (hdip : s.dipSeen = false) (hw : s.opensWithWait .boardSnap ms) :
    let t := s.planEnded run.plan .done n c
    e.settle.finish = { t with
      run := some (s.firstWait .boardSnap c' ms), plans := t.plans.set 5 t.plans[5].atStart, reqs := PendingSet.none
      pulse := .idle } := by
  let z : Ev := Ev.planOver s run.plan .done n c
  let x : Ev := { z with planEnded := true, arb := true }
  have hne : s.sys ≠ .panelOn ∧ s.sys ≠ .starting ∧ s.sys ≠ .unconfigured := by
    obtain hs | hs | hs := hs <;> rw [hs] <;> decide
  have hx : Ev.ended s run .done n c = x := by
    have hstay : z.stateOnDone run.plan = z := by
      rw [hp]
      exact if_neg hne.1
    have h1 : z.stateOnEnd run.plan .done = z := (congrArg Ev.judgeDip hstay).trans (Ev.judgeDip_none z (.inl hdip))
    have h2 (y : Ev) (k : Nat) : y.rideOnPlanEnd run.plan .done k = y := by rw [hp]; rfl
    rw [Ev.ended, h1, h2]
  rw [hx] at h
  have hc : x.choose = (x, some .boardSnap) := by
    have hq' : x.reqs = { PendingSet.none with boardSnap := some c' } := hq
    refine Ev.choose_boardSnap x hne.2.1 hne.2.2 ?_ ?_ <;> rw [State.isPending, hq'] <;> rfl
  rw [Ev.settle_ended h rfl rfl rfl (Ev.arbitrate_starts x .boardSnap (ms := ms) rfl hc (.inl hsup) (.inl hdip) hw) rfl,
    State.planBegun_boardSnap x.toState hsup hq]
  exact Ev.finish_clean _ rfl rfl

end

end Sys2Proof.Machine

namespace Sys2Proof.Machine

/-! ### The steps of a plan and the ends of plans, assembled -/

/-- The deadline of an AWAIT_LOCK runs out (R55). -/
theorem exec_awaitLockDeadlineExpiry (s : State) {run : Run} {d : Nat} (hr : s.run = some run)
    (hd : run.wait = .lock d) :
    exec .awaitLockDeadlineExpiry s = .next (Ev.answered s run (.missed .lockTimeout)).settle.finish := by
  have hw : (Ev.start s).waitOf = .lock d := by simp [State.waitOf, hr, hd]
  simp only [exec, execAwaitLockDeadlineExpiry, runEvent, hw, Ev.answer_start s _ hr]

/-- With no WAIT in progress its expiry has no effect (log 3). -/
theorem exec_waitStepExpiry_idle (s : State) (h : ∀ d, s.waitOf ≠ .time d) : exec .waitStepExpiry s = .next s := by
  simp only [exec, execWaitStepExpiry, runEvent]
  cases hw : s.waitOf with
  | time d => exact absurd hw (h d)
  | nothing | railOn _ | railOff _ | lock _ | handshake _ =>
    rw [show (Ev.start s).waitOf = s.waitOf from rfl, hw]
    rfl

/-- With no AWAIT_LOCK in progress its deadline's expiry has no effect (log 3). -/
theorem exec_awaitLockDeadlineExpiry_idle (s : State) (h : ∀ d, s.waitOf ≠ .lock d) :
    exec .awaitLockDeadlineExpiry s = .next s := by
  simp only [exec, execAwaitLockDeadlineExpiry, runEvent]
  cases hw : s.waitOf with
  | lock d => exact absurd hw (h d)
  | nothing | railOn _ | railOff _ | time _ | handshake _ =>
    rw [show (Ev.start s).waitOf = s.waitOf from rfl, hw]
    rfl

/-- With no HANDSHAKE in progress its deadline's expiry has no effect (log 3). -/
theorem exec_handshakeDeadlineExpiry_idle (s : State) (h : ∀ d, s.waitOf ≠ .handshake d) :
    exec .handshakeDeadlineExpiry s = .next s := by
  have hw : (Ev.start s).handshakeWaits = false := by
    rw [show (Ev.start s).handshakeWaits = s.handshakeWaits from rfl]
    unfold State.handshakeWaits
    split
    · rename_i d hd
      exact absurd hd (h d)
    all_goals rfl
  simp only [exec, execHandshakeDeadlineExpiry, runEvent, hw]
  rfl

/-- A miss passed over is an answer that lets the plan go on, with its cause as the note (R58). -/
theorem State.goesOnWith_missed (s : State) (run : Run) {c : Cause} (hc : c ≠ .none) (hp : s.passesOver run) :
    s.goesOnWith run (.missed c) c := ⟨rfl, hc, hp⟩

section
variable (s : State) {run : Run} {d : Nat} (hr : s.run = some run) (hd : run.wait = .time d)
  (ht : run.inTail = false) (hl : run.current < (s.cfg.plan run.plan).bodyLast)
include hr hd ht hl

/-- The step after a WAIT completes at once with no note: the plan goes on to a WAIT. -/
theorem exec_waitStepExpiry_completes {t : State} {c : Cause} {ms : Nat} (hc : c = .none ∨ c = .held)
    (h : (Ev.stepStarted s run).beginStep = (Ev.start s).upd (t.withRun (some run.next)) (some (.completed c)))
    (hw : t.waitsNext run.next ms) : exec .waitStepExpiry s = .next (t.passed run.next ms c) :=
  exec_waitStepExpiry_ends s hr hd ht hl h ⟨rfl, by rintro rfl; simp at hc⟩ hw

/-- The step after a WAIT misses at once (R58, R59). -/
theorem exec_waitStepExpiry_misses {c : Cause} (hc : c ≠ .none)
    (h : (Ev.stepStarted s run).beginStep = (Ev.start s).upd (s.withRun (some run.next)) (some (.missed c))) :
    (s.passesOver run.next → ∀ ms, s.waitsNext run.next ms →
        exec .waitStepExpiry s = .next (s.passed run.next ms c))
      ∧ ∀ ms, ¬ s.passesOver run.next → s.tailOpensWithWait run.next ms → exec .waitStepExpiry s = .next { s with
          run := some { s.tailWaiting run.next .failed c ms with stepsDone := run.next.stepsDone + 1 } } :=
  ⟨fun hp _ hw => exec_waitStepExpiry_ends s hr hd ht hl h (s.goesOnWith_missed run.next hc hp) hw,
    fun _ hp hw => exec_waitStepExpiry_fails s hr hd ht hl h hp hw⟩

end

/-- Settles O53. -/
theorem stepsEndAndPlansWithThem : Obligations.StepsEndAndPlansWithThem := by
  intro s
  refine ⟨exec_waitStepExpiry_idle s, exec_awaitLockDeadlineExpiry_idle s, exec_handshakeDeadlineExpiry_idle s,
    fun run d hr => ⟨fun ms hd hw => ?_, fun hd ht hl => ?_, fun ms hd hw hm => ?_, fun ms hd ht hp hm hw => ?_,
      fun hd ht hn hm hq => ?_, fun hd hp ht ho hl hs hg hq => ?_, fun hd ht hl hk => ?_⟩⟩
  · rw [exec_waitStepExpiry s hr hd, Ev.settle_passed (Ev.answered s run (.completed .none)) (note := .none) rfl rfl
      ⟨rfl, nofun⟩ hw rfl rfl rfl]
    rfl
  · let k : Ev := Ev.stepStarted s run
    have hk : k.run = some run.next := rfl
    refine ⟨fun hc hv ms hw => ?_, fun l hc hv ms hw => ?_, fun hc => ⟨fun h ms hw => ?_, fun h => ?_⟩,
      fun hc => ⟨fun h ms hw => ?_, fun h1 h2 => ?_⟩, fun r hc htgt => ⟨fun hu => ?_, fun hu => ?_⟩,
      fun r hc htgt => ?_⟩
    · exact exec_waitStepExpiry_completes s hr hd ht hl (t := s) (.inl rfl) (Ev.beginStep_waitZero k hk hc hv) hw
    · exact exec_waitStepExpiry_completes s hr hd ht hl (t := { s with planLevels := _ }) (.inl rfl)
        (Ev.beginStep_line k hk l hc hv) hw
    · exact exec_waitStepExpiry_completes s hr hd ht hl (t := s) (.inl rfl) (Ev.beginStep_locked k hk hc h) hw
    · exact exec_waitStepExpiry_waits s hr hd ht hl ((Ev.beginStep_unlocked k hk hc h).trans rfl)
    · exact exec_waitStepExpiry_completes s hr hd ht hl (t := { s with hsMemory := .skipped, ride.slot := _ })
        (.inl rfl) ((Ev.beginStep_handshake k hk hc).trans (Ev.beginHandshake_skipped k run.next _ h)) hw
    · exact exec_waitStepExpiry_waits s hr hd ht hl
        ((Ev.beginStep_handshake k hk hc).trans ((Ev.beginHandshake_waits k run.next _ h1 h2).trans rfl))
    · exact exec_waitStepExpiry_misses s hr hd ht hl (by decide)
        ((Ev.beginStep_railOn k hk r hc htgt).trans (Ev.enableRequest_unused _ rfl hu))
    · let k1 : Ev := k.setWait (.railOn r)
      have hb : k.beginStep = k1.enableRequest r := Ev.beginStep_railOn k hk r hc htgt
      refine ⟨fun hx ms hw => ?_, fun hx hsh ms hw => ?_, fun hx hsh hn => ?_, fun hx hsh hm hp ms hw => ?_,
        fun hx ms hw => ?_, fun hx => ?_, fun hx => ?_⟩
      · exact exec_waitStepExpiry_completes s hr hd ht hl (t := s) (.inl rfl)
          (hb.trans (Ev.enableRequest_on k1 rfl hu hx)) hw
      · exact exec_waitStepExpiry_completes s hr hd ht hl (t := { s with rails := _ }) (.inr rfl)
          (hb.trans ((Ev.enableRequest_off k1 hu hx).trans (Ev.rampStart_shed k1 rfl hsh))) hw
      · exact exec_waitStepExpiry_waits s hr hd ht hl
          (hb.trans ((Ev.enableRequest_off k1 hu hx).trans ((Ev.rampStart_ramps k1 hsh hn).trans rfl)))
      · exact exec_waitStepExpiry_completes s hr hd ht hl (t := { s with rails := _ }) (.inl rfl)
          (hb.trans ((Ev.enableRequest_off k1 hu hx).trans (Ev.rampStart_on k1 rfl hsh hm hp))) hw
      · exact exec_waitStepExpiry_completes s hr hd ht hl (t := s) (.inr rfl)
          (hb.trans (Ev.enableRequest_shed k1 rfl hu hx)) hw
      · exact exec_waitStepExpiry_misses s hr hd ht hl (by decide) (hb.trans (Ev.enableRequest_faulted k1 rfl hu hx))
      · exact exec_waitStepExpiry_waits s hr hd ht hl (hb.trans ((Ev.enableRequest_underway k1 hu hx).trans rfl))
    · let k1 : Ev := k.setWait (.railOff r)
      have hb : k.beginStep = k1.offRequest r := Ev.beginStep_railOff k hk r hc htgt
      refine ⟨fun hx ms hw => ?_, fun hx h1 h2 => ⟨fun hm => ?_, fun hm hp ms hw => ?_⟩, fun hx => ?_,
        fun hx ms hw => ?_⟩
      · exact exec_waitStepExpiry_completes s hr hd ht hl (t := { s with rails := _ }) (.inl rfl)
          (hb.trans (Ev.offRequest_ended k1 rfl hx)) hw
      · exact exec_waitStepExpiry_waits s hr hd ht hl (hb.trans ((Ev.offRequest_beginsDrain k1 hx h1 h2 hm).trans rfl))
      · exact exec_waitStepExpiry_completes s hr hd ht hl (t := { s with rails := _ }) (.inl rfl)
          (hb.trans (Ev.offRequest_endsDrain k1 rfl hx h1 h2 hm hp)) hw
      · exact exec_waitStepExpiry_waits s hr hd ht hl (hb.trans ((Ev.offRequest_drains k1 hx).trans rfl))
      · exact exec_waitStepExpiry_completes s hr hd ht hl (t := { s with rails := _ }) (.inl rfl)
          (hb.trans (Ev.offRequest_rests k1 rfl hx)) hw
  · rw [exec_awaitLockDeadlineExpiry s hr hd, Ev.settle_passed (Ev.answered s run (.missed .lockTimeout)) (run :=
      { run with wait := .nothing }) rfl rfl (s.goesOnWith_missed run (by decide) (.inl hm)) hw rfl rfl rfl]
    rfl
  · have hs : ¬ s.passesOver run := by simp [State.passesOver, hp, hm]
    rw [exec_awaitLockDeadlineExpiry s hr hd, Ev.settle_tail (Ev.answered s run (.missed .lockTimeout)) (run :=
      { run with wait := .nothing }) rfl rfl hs ht hw rfl rfl rfl]
    rfl
  · have hfail (hp : run.plan.isSnap = false) (m : Nat) :
        Ev.runSteps (m + 1) (Ev.answered s run (.missed .lockTimeout))
          = Ev.runSteps m (Ev.ended s run .failed run.current .lockTimeout) :=
      Ev.runSteps_failed s (by simp [State.passesOver, hp, hm]) ht hn m
    rw [exec_awaitLockDeadlineExpiry s hr hd]
    refine ⟨fun hp hs hg => ?_, fun ms hp hs hready => ?_, fun ms hp hs hready => ?_⟩
    · rw [Ev.settle_upFailed s (hfail (by rw [hp]; rfl)) (g := .boardOn) (.inr hp) hs (by rw [hs]; decide)
        (by rw [hg]; decide) hq]
    · rw [Ev.settle_panelDownFailed s (hfail (by rw [hp]; rfl)) hp hs hready]
    · rw [Ev.settle_boardDownFailed s (hfail (by rw [hp]; rfl)) hp hs hready]
  · have hover := Ev.runSteps_tailOver s ht (by rw [hp]; exact hl)
    rw [ho] at hover
    have hrank : Target.standby.rank < s.target.rank := by
      cases h : s.target with
      | standby => exact absurd h hg
      | boardOn => decide
      | panelOn => decide
    rw [exec_waitStepExpiry s hr hd, Ev.settle_upFailed s hover (g := .standby) (.inl hp) hs (by rw [hs]; decide) hrank
      hq, hp]
  · have hdone := Ev.runSteps_done s ht hl
    rw [exec_waitStepExpiry s hr hd]
    refine ⟨fun hp hg hq hkey hdip => ?_, fun c hp hs hg hq hkey hdip hsup hlock => ?_, fun hp hs hg hq => ?_,
      fun c ms hp hg hq hsup hkey hdip hw => ⟨fun hs => ?_, fun hs => ?_⟩,
      fun hp hs hg hq hride => ⟨fun hlock => ?_, fun hlock => ?_⟩,
      fun hp hq hdip => ⟨fun hs => ?_, fun hs hg hsup hlock => ?_⟩⟩
    · rw [Ev.settle_toBoardOn s hdone hp hk hg hq hkey hdip]
    · rw [Ev.settle_panelUp s hdone hp hs hk hg hq hkey hdip hsup hlock]
    · rw [Ev.settle_boardDown s hdone hp hs hk hg hq]
    · rw [Ev.settle_panelSnapMoved s hdone hp hs hk hq hsup hkey hdip hw]
    · rw [Ev.settle_panelSnapStays s hdone hp hs hq hsup hdip hw]
    · rw [Ev.settle_boardSnapLocked s hdone hp hs hk hg hq hride (s.anyLockout_eq_true.2 hlock)]
    · rw [Ev.settle_boardSnap s hdone hp hs hk hg hq hride (s.anyLockout_eq_false.2 hlock)]
    · obtain ⟨hs, hg⟩ | ⟨hs, hg⟩ := hs
      · rw [Ev.settle_service s hdone hp (g := .standby) hs hg (by rw [hs]; decide) hq hdip]
      · rw [Ev.settle_service s hdone hp (g := .boardOn) hs hg (by rw [hs]; decide) hq hdip]
    · rw [Ev.settle_serviceWatched s hdone hp hs hg hq hdip hsup hlock]

end Sys2Proof.Machine

namespace Sys2Proof.Machine

/-! ### FAULTED rails and the resets -/

/-- A rail's enable output is asserted exactly in RAMPING and ON (R23). -/
theorem State.enableOut_iff (s : State) (r : Rail) :
    s.enableOut r = true ↔ s.rails[r].state = .ramping ∨ s.rails[r].state = .on := by
  unfold State.enableOut
  cases s.rails[r].state <;> simp

/-- A rail's bleed output is asserted exactly in DRAINING, if the rail has a bleed (R23). -/
theorem State.bleedOut_iff (s : State) (r : Rail) :
    s.bleedOut r = true ↔ s.rails[r].state = .draining ∧ (s.railCfg r).bleed = true := by
  simp [State.bleedOut]

/-- Settles O5: by `exec_keepMost` a FAULTED rail that no request taken clears stays FAULTED. -/
theorem faultedRailLeavesByClearOrReset : Obligations.FaultedRailLeavesByClearOrReset := by
  refine ⟨fun s r => ⟨s.enableOut_iff r, s.bleedOut_iff r⟩, fun c s t r hc hf hl => ?_⟩
  by_cases hr : c.isReset
  · exact .inl hr
  · refine .inr (by_contra fun hno => hl ?_)
    obtain ⟨u, hu, hkeep, -⟩ := exec_keepMost c hr s
    obtain rfl : u = t := next_inj (hu.symm.trans hc)
    exact hkeep.faulted r (fun f hs hcl => hno ⟨f, hs, hcl⟩) hf

/-- What either part reset leaves (R15): the values of `State.afterReset` with the pins' levels kept, in all but the
shutdown record, the scanner and the progress of the image check. -/
theorem exec_reset (c : Instr) (s : State) (h : c.isReset) :
    ∃ (inReset checking : Bool) (d : ShutdownRec) (sc : Scanner), exec c s = .next
      { State.afterReset s.store.image { s.pins with inReset := inReset } s.now s.pending with
        shutdown := d, scan := sc, store.checking := checking } := by
  obtain rfl | rfl := h
  · exact ⟨false, true, _, _, rfl⟩
  · exact ⟨true, false, _, _, rfl⟩

/-- With no hold on any tier and no dark hold, no reset pulse, the plan level is driven (R72). -/
theorem State.driven_unforced (s : State) (l : LineId) (hp : s.pulse = .idle) (hs : s.sup = .inactive)
    (ht : ∀ k : Fin 4, s.tierShed k = false) : s.driven l = s.planLevels[l.idx] := by
  have hshed : s.sheddingTier l = none := by simp [State.sheddingTier, allTiers, ht]
  simp [State.driven, State.lineSource, State.pulseActive, hp, State.darkHold, hs, hshed]

/-- Settles O9: every block holds the values of `State.afterReset`. -/
theorem resetReturnsEveryBlock : Obligations.ResetReturnsEveryBlock := by
  intro c s hc
  obtain ⟨inReset, checking, d, sc, hexec⟩ := exec_reset c s hc
  refine ⟨_, hexec, fun r => ?_, rfl, rfl, rfl, fun p => ?_, fun l => ⟨?_, ?_⟩, rfl, rfl, rfl, rfl, ?_, ?_, rfl, rfl,
    rfl, rfl, rfl, rfl, rfl, rfl, rfl, rfl, rfl, fun k => ?_, rfl, rfl, rfl, rfl, rfl, rfl, rfl, rfl, rfl, fun i => ?_,
    rfl, rfl, rfl, rfl, rfl, rfl, rfl, rfl, rfl, rfl, rfl⟩
  · simp [State.afterReset, RailRt.reset, State.enableOut, State.bleedOut]
  · exact ⟨by cases p <;> rfl, rfl, by simp [State.afterReset, PlanRt.reset]⟩
  · cases l <;> rfl
  · exact State.driven_unforced _ l rfl rfl fun k => by simp [State.tierShed, State.afterReset, TierRt.reset, HoldSet.any]
  · simp [State.watchMs, State.countedUs, State.afterReset, toMs]
  · cases hl : s.pins.lock <;> simp [State.afterReset, hl]
  · simp [State.afterReset, TierRt.reset]
  · simp [State.afterReset, FaultRec.reset, FaultRec.state]
end Sys2Proof.Machine

namespace Sys2Proof.Machine

/-! ### A rail's operation from the start of an event

Up to the answer or the action it marks, an event that moves one rail is `Ev.start` of a state: the lemmas from here on
say of which. -/

/-- The state with rail `r`'s record replaced. -/
def State.withRail (s : State) (r : Rail) (y : RailRt) : State := { s with rails := s.rails.set r y }

/-- The record that was written. -/
@[simp] theorem State.withRail_get (s : State) (r : Rail) (y : RailRt) : (s.withRail r y).rails[r] = y := by
  simp [State.withRail]

/-- The last record written stands. -/
@[simp] theorem State.withRail_withRail (s : State) (r : Rail) (y z : RailRt) :
    (s.withRail r y).withRail r z = s.withRail r z := by
  simp [State.withRail]

/-- A record written as it stands changes nothing. -/
@[simp] theorem State.withRail_self (s : State) (r : Rail) : s.withRail r s.rails[r] = s := by
  simp [State.withRail]

/-- A change of a rail's record from the start of an event. -/
theorem Ev.setRail_start (s : State) (r : Rail) (f : RailRt → RailRt) :
    (Ev.start s).setRail r f = Ev.start (s.withRail r (f s.rails[r])) := rfl

/-- An event with nothing marked ends as it stands. -/
theorem Ev.settle_start (s : State) : (Ev.start s).settle = Ev.start s := Ev.settle_quiet _ rfl rfl rfl rfl

/-- An occurrence changes the record and queues FAULT (R150, R151). -/
theorem Ev.occurrence_eq (e : Ev) (src : Fin 15) (o : Occurrence) :
    e.occurrence src o = e.upd (e.occurred src o) e.ans := by
  simp only [Ev.occurrence, Ev.faultNotice, Ev.setFault, State.occurred, FaultRec.noticeBody, Ev.notice, Ev.upd]
  simp

/-- The same from the start of an event. -/
theorem Ev.occurrence_start (s : State) (src : Fin 15) (o : Occurrence) :
    (Ev.start s).occurrence src o = Ev.start (s.occurred src o) := Ev.occurrence_eq _ src o

/-- With the rail's condition absent, nothing is reported ended (R149). -/
theorem Ev.conditionEnded_absent (e : Ev) (src : Fin 15) (h : e.faults[src].condition = false) :
    e.conditionEnded src = e := by
  rw [Ev.conditionEnded, h, if_neg Bool.false_ne_true]

/-- A record is ACTIVE exactly while its condition is present and no latch is set (R148). -/
theorem FaultRec.state_active_iff (f : FaultRec) : f.state = .active ↔ f.latch = false ∧ f.condition = true := by
  unfold FaultRec.state
  cases f.latch <;> cases f.condition <;> simp
  split <;> simp

/-- An ACTIVE record that has its first cause turns STICKY as its condition ends (R148). -/
theorem FaultRec.state_eased (f : FaultRec) (h : f.state = .active) (hc : f.firstCause ≠ .none) :
    ({ f with condition := false } : FaultRec).state = .sticky := by
  obtain ⟨hl, -⟩ := f.state_active_iff.1 h
  simp [FaultRec.state, hl, hc]

/-- The condition of an ACTIVE record is reported ended: the record is STICKY, with FAULT queued (R149, R151). -/
theorem Ev.conditionEnded_active (s : State) (src : Fin 15) (h : s.faults[src].state = .active)
    (hc : s.faults[src].firstCause ≠ .none) : (Ev.start s).conditionEnded src = Ev.start (s.eased src) := by
  obtain ⟨-, hcond⟩ := s.faults[src].state_active_iff.1 h
  let f : FaultRec := { s.faults[src] with condition := false }
  have hf : ((Ev.start s).setFault src fun f => { f with condition := false }).faults[src] = f := by
    simp [f]
  have hsticky : ¬ f.state = s.faults[src].state := by
    rw [h, FaultRec.state_eased _ h hc]
    decide
  rw [Ev.conditionEnded, Ev.start_faults, if_pos hcond]
  dsimp only
  rw [hf, if_neg hsticky, Ev.faultNotice, hf]
  rfl

/-! ### The answer to a waiting step -/

section
variable (s : State) {r : Rail} (a : Answer)

/-- With no step waiting on the rail a RAIL_ON's answer goes nowhere (R40). -/
theorem Ev.answerOn_unheard (e : Ev) (h : e.waitOf ≠ .railOn r) : e.answerOn r a = e := if_neg h

/-- With no step waiting on the rail a RAIL_OFF's answer goes nowhere (R39). -/
theorem Ev.answerOff_unheard (e : Ev) (h : e.waitOf ≠ .railOff r) : e.answerOff r a = e := if_neg h

/-- The answer to a step in flight lets the plan go on to a WAIT (R50). -/
theorem Ev.settle_answer {w : Wait} {run : Run} {ms : Nat} {note : Cause} (hw : s.waitsOn w run ms)
    (hg : s.goesOnWith run a note) : ((Ev.start s).answer a).settle = Ev.start (s.passed run ms note) := by
  obtain ⟨hr, -, hnext⟩ := hw
  rw [Ev.answer_start s a hr,
    Ev.settle_passed (Ev.answered s run a) (run := { run with wait := .nothing }) rfl rfl hg hnext rfl rfl rfl]
  rfl

/-- An event whose answer is for a RAIL_ON step leaves the rail's move alone where none waits, and passes the step to
the WAIT behind it where one does (R40, R51). -/
theorem Ev.settle_answerOn {note : Cause} :
    (s.noStepOn r → ((Ev.start s).answerOn r a).settle = Ev.start s)
      ∧ ∀ run ms, s.waitsOn (.railOn r) run ms → s.goesOnWith run a note →
        ((Ev.start s).answerOn r a).settle = Ev.start (s.passed run ms note) := by
  refine ⟨fun h => ?_, fun run ms hw hg => ?_⟩
  · rw [Ev.answerOn_unheard a (Ev.start s) h.1, Ev.settle_start]
  · rw [Ev.answerOn_waiting (Ev.start s) a hw.waitOf, Ev.settle_answer s a hw hg]

/-- The same for a RAIL_OFF step (R39, R52). -/
theorem Ev.settle_answerOff {note : Cause} :
    (s.noStepOn r → ((Ev.start s).answerOff r a).settle = Ev.start s)
      ∧ ∀ run ms, s.waitsOn (.railOff r) run ms → s.goesOnWith run a note →
        ((Ev.start s).answerOff r a).settle = Ev.start (s.passed run ms note) := by
  refine ⟨fun h => ?_, fun run ms hw hg => ?_⟩
  · rw [Ev.answerOff_unheard a (Ev.start s) h.2, Ev.settle_start]
  · rw [Ev.answerOff_waiting (Ev.start s) a hw.waitOf, Ev.settle_answer s a hw hg]

end

/-! ### Ramps -/

/-- The record of a rail that goes ON (R27, R33). -/
def RailRt.goneOn (x : RailRt) : RailRt :=
  { x with state := .on, timer := none, winDetector := false, pgDetector := false }

/-- The record of a rail that takes SHED (R26). -/
def RailRt.goneShed (x : RailRt) : RailRt := { x with state := .shed, timer := none, clearedInDrain := false }

section
variable (s : State) {r : Rail}

/-- A RAMPING rail that meets its monitor condition goes ON (R27). -/
theorem Ev.tryOn_met (hx : s.rails[r].state = .ramping) (hm : monitorMet (s.railCfg r).monitor s.rails[r] = true) :
    (Ev.start s).tryOn r = (Ev.start (s.withRail r s.rails[r].goneOn)).answerOn r (.completed .none) :=
  if_pos ⟨hx, hm⟩

/-- A rail that does not meet its monitor condition stays as it is (R27). -/
theorem Ev.tryOn_unmet (hm : monitorMet (s.railCfg r).monitor s.rails[r] = false) :
    (Ev.start s).tryOn r = Ev.start s := by
  refine if_neg ?_
  rintro ⟨_, h⟩
  exact Bool.false_ne_true (hm.symm.trans h)

/-- While its tier is shed a rail takes SHED in place of an attempt (R26, log 19). -/
theorem Ev.beginAttempt_shed (k : Nat) (hs : s.railShed r = true) :
    (Ev.start s).beginAttempt r k = (Ev.start (s.withRail r s.rails[r].goneShed)).answerOn r (.completed .held) :=
  if_pos hs

/-- An attempt begins with the rail's record alone where the monitor condition is not met at once (R26, R28). -/
theorem Ev.beginAttempt_ramps (k : Nat) (hs : s.railShed r = false) (hn : s.notMetAtOnce r) :
    (Ev.start s).beginAttempt r k = Ev.start (s.withRail r (s.rampingAt r s.rails[r] k)) := by
  let y := s.rampingAt r s.rails[r] k
  have hmet : monitorMet (s.railCfg r).monitor y = false := by
    obtain h | h | h := hn
    · rw [h]; rfl
    · cases (s.railCfg r).monitor <;> simp [-Fin.getElem_fin, monitorMet, y, State.rampingAt, h]
    · simp [monitorMet, h, y, State.rampingAt]
  have htry : (Ev.start (s.withRail r y)).tryOn r = Ev.start (s.withRail r y) :=
    Ev.tryOn_unmet _ (by rw [State.withRail_get]; exact hmet)
  refine (if_neg ?_).trans htry
  rw [show (Ev.start s).railShed r = s.railShed r from rfl, hs]
  exact Bool.false_ne_true

variable (y : RailRt)

/-- The same right after the rail's record is written. -/
theorem Ev.rampStart_shedRecord (hs : s.railShed r = true) :
    (Ev.start (s.withRail r y)).rampStart r = (Ev.start (s.withRail r y.goneShed)).answerOn r (.completed .held) := by
  rw [Ev.rampStart, Ev.beginAttempt_shed (s.withRail r y) 1 hs, State.withRail_withRail, State.withRail_get]

/-- A ramp starts right after the rail's record is written, its pg level as it was (R26). -/
theorem Ev.rampStart_record (hs : s.railShed r = false) (hn : s.notMetAtOnce r)
    (hp : y.pgLevel = s.rails[r].pgLevel) :
    (Ev.start (s.withRail r y)).rampStart r = Ev.start (s.withRail r (s.rampingAt r y 1)) := by
  have hn' : (s.withRail r y).notMetAtOnce r := by
    unfold State.notMetAtOnce
    rw [State.withRail_get, hp]
    exact hn
  rw [Ev.rampStart, Ev.beginAttempt_ramps (s.withRail r y) 1 hs hn', State.withRail_withRail, State.withRail_get]
  rfl

end

end Sys2Proof.Machine

namespace Sys2Proof.Machine

/-! ### The home test and the ends of a drain -/

/-- The record of a rail that goes OFF at the end of its drain (R31). -/
def RailRt.goneOff (x : RailRt) : RailRt := { x with state := .off, timer := none, clearedInDrain := false }

/-- The record of a rail that takes FAULTED at the end of its drain (R31). -/
def RailRt.goneFaulted (x : RailRt) : RailRt := { x with state := .faulted, timer := none, clearedInDrain := false }

/-- What a late end of a drain tells a waiting RAIL_OFF step (R52). -/
def drainNote (late : Bool) : Cause := if late then .drainLate else .none

section
variable (s : State) {r : Rail}

/-- Away from home, or while a plan runs, the home test turns the rail OFF (R42). -/
theorem Ev.homeTest_away (h : (s.railCfg r).home.covers s.sys = false ∨ s.run ≠ none) :
    (Ev.start s).homeTest r = Ev.start (s.withRail r { s.rails[r] with state := .off, timer := none }) := by
  have hno : ((s.railCfg r).home.covers s.sys && s.engineIdle) = false := by
    obtain h | h := h
    · rw [h, Bool.false_and]
    · rw [State.engineIdle, Option.isNone_eq_false_iff.2 (Option.isSome_iff_ne_none.2 h), Bool.and_false]
  exact if_neg fun h => Bool.false_ne_true (hno.symm.trans h)

/-- At home, with no plan running, the home test starts a ramp (R42). -/
theorem Ev.homeTest_home (h : (s.railCfg r).home.covers s.sys = true) (hr : s.run = none) :
    (Ev.start s).homeTest r = (Ev.start s).rampStart r := by
  refine if_pos ?_
  rw [show (Ev.start s).engineIdle = s.run.isNone from rfl, hr]
  exact (Bool.and_true _).trans h

variable (late : Bool)

/-- A drain towards OFF ends: the rail is OFF, and a waiting RAIL_OFF step completes (R31, R39). -/
theorem Ev.drainEnd_off (hd : s.rails[r].dest = .off) (hc : s.rails[r].clearedInDrain = false)
    (hw : s.waitOf ≠ .railOn r) : (Ev.start s).drainEnd r late
      = (Ev.start (s.withRail r s.rails[r].goneOff)).answerOff r (.completed (drainNote late)) := by
  have hw' : (Ev.start s).waitOf ≠ .railOn r := hw
  simp only [Ev.drainEnd, Ev.start_rails, hd, hc, if_neg hw', Bool.false_eq_true, if_false]
  rfl

/-- A drain towards OFF ends under a waiting RAIL_ON step: the rail ramps from OFF (R40). -/
theorem Ev.drainEnd_wanted (hd : s.rails[r].dest = .off) (hw : s.waitOf = .railOn r) :
    (Ev.start s).drainEnd r late = (Ev.start (s.withRail r s.rails[r].goneOff)).rampStart r := by
  have hw' : (Ev.start s).waitOf = .railOn r := hw
  simp only [Ev.drainEnd, Ev.start_rails, hd, if_pos hw']
  rfl

/-- A rail cleared in its drain towards FAULTED meets the home test at the end, here with no step waiting (R42). -/
theorem Ev.drainEnd_cleared (hd : s.rails[r].dest = .off) (hc : s.rails[r].clearedInDrain = true) (hw : s.noStepOn r)
    {t : State} (h : (Ev.start (s.withRail r s.rails[r].goneOff)).homeTest r = Ev.start t) (ht : t.run = s.run) :
    (Ev.start s).drainEnd r late = Ev.start t := by
  obtain ⟨hon, hoff⟩ := hw
  have hon' : (Ev.start s).waitOf ≠ .railOn r := hon
  have hoff' : (Ev.start t).waitOf ≠ .railOff r := by
    rw [show (Ev.start t).waitOf = s.waitOf by simp [State.waitOf, ht]]
    exact hoff
  simp only [Ev.drainEnd, Ev.start_rails, hd, hc, if_neg hon', if_true]
  exact (congrArg (fun e : Ev => e.answerOff r (.completed (drainNote late))) h).trans
    (Ev.answerOff_unheard _ (Ev.start t) hoff')

/-- A drain towards SHED ends: the rail rests there while its tier is shed, and ramps otherwise, as at any start of a
ramp (R31, R41). -/
theorem Ev.drainEnd_shed (hd : s.rails[r].dest = .shed) : (Ev.start s).drainEnd r late = (Ev.start s).rampStart r := by
  simp only [Ev.drainEnd, Ev.start_rails, hd, Ev.rampStart, Ev.beginAttempt]
  split <;> rfl

/-- A drain towards the next attempt ends: the attempt begins (R28). -/
theorem Ev.drainEnd_ramp (hd : s.rails[r].dest = .ramp) :
    (Ev.start s).drainEnd r late = (Ev.start s).beginAttempt r (s.rails[r].attempt + 1) := by
  simp only [Ev.drainEnd, Ev.start_rails, hd]

/-- A drain towards RETRY_WAIT ends: the retry wait begins (R36). -/
theorem Ev.drainEnd_retryWait (hd : s.rails[r].dest = .retryWait) : (Ev.start s).drainEnd r late
      = Ev.start (s.withRail r
          { s.rails[r] with state := .retryWait, timer := some (s.now + 1000 * (s.railCfg r).retryMs) }) := by
  have h : (Ev.start s).drainEnd r late = (Ev.start s).setRail r fun x =>
      { x with state := .retryWait, timer := s.after (s.railCfg r).retryMs } := by
    simp only [Ev.drainEnd, Ev.start_rails, hd]
    rfl
  exact h

/-- A drain towards FAULTED ends: a waiting RAIL_ON step misses, a waiting RAIL_OFF step completes (R39, R40). -/
theorem Ev.drainEnd_faulted (hd : s.rails[r].dest = .faulted) : (Ev.start s).drainEnd r late
      = ((Ev.start (s.withRail r s.rails[r].goneFaulted)).answerOn r (.missed .latched)).answerOff r
          (.completed (drainNote late)) := by
  simp only [Ev.drainEnd, Ev.start_rails, hd]
  rfl

end

/-- After an answer no step waits (R50). -/
theorem Ev.answer_waitOf (e : Ev) (a : Answer) : (e.answer a).waitOf = .nothing := by
  unfold Ev.answer Ev.setWait State.waitOf
  cases e.run <;> rfl

/-- With no step waiting on the rail no answer is heard (R39, R40). -/
theorem Ev.answers_unheard (s : State) {r : Rail} (a b : Answer) (h : s.noStepOn r) :
    ((Ev.start s).answerOn r a).answerOff r b = Ev.start s := by
  rw [Ev.answerOn_unheard a (Ev.start s) h.1, Ev.answerOff_unheard b (Ev.start s) h.2]

/-- An event with an answer for either rail step: it leaves the rail's move alone where none waits, and passes the step
that waits to the WAIT behind it (R39, R40). -/
theorem Ev.settle_answerBoth (s : State) {r : Rail} (a b : Answer) {note note' : Cause} :
    (s.noStepOn r → (((Ev.start s).answerOn r a).answerOff r b).settle = Ev.start s)
      ∧ (∀ run ms, s.waitsOn (.railOff r) run ms → s.goesOnWith run b note →
        (((Ev.start s).answerOn r a).answerOff r b).settle = Ev.start (s.passed run ms note))
      ∧ ∀ run ms, s.waitsOn (.railOn r) run ms → s.goesOnWith run a note' →
        (((Ev.start s).answerOn r a).answerOff r b).settle = Ev.start (s.passed run ms note') := by
  refine ⟨fun h => ?_, fun run ms hw hg => ?_, fun run ms hw hg => ?_⟩
  · rw [Ev.answers_unheard s a b h, Ev.settle_start]
  · have hon : (Ev.start s).waitOf ≠ .railOn r := by
      rw [show (Ev.start s).waitOf = s.waitOf from rfl, hw.waitOf]
      nofun
    rw [Ev.answerOn_unheard a (Ev.start s) hon, (Ev.settle_answerOff s b).2 run ms hw hg]
  · have hon : (Ev.start s).answerOn r a = (Ev.start s).answer a := Ev.answerOn_waiting _ a hw.waitOf
    rw [hon, Ev.answerOff_unheard b _ (by rw [Ev.answer_waitOf]; nofun), Ev.settle_answer s a hw hg]

end Sys2Proof.Machine

namespace Sys2Proof.Machine

/-! ### Ends of drains and retry waits, assembled -/

section
variable (s : State) (r : Rail)

/-- An expiry of the drain timer records DRAIN_TIMEOUT and ends the drain late (R32). -/
theorem exec_drainTimeout (h : s.rails[r].state = .draining) :
    exec (.drainTimeout r) s = .next ((Ev.start (s.occurred (srcRail r)
      { cause := .drainTimeout, value := s.rails[r].lastMV, latching := false, withCondition := false,
        action := .none })).drainEnd r true).settle.finish := by
  simp only [exec, execDrainTimeout, runEvent, Ev.start_rails, h, if_true, Ev.drainExpiry, Ev.occurrence_start]

/-- An expiry of the retry wait counts the retry and starts a ramp (R36). -/
theorem exec_retryWaitExpiry (h : s.rails[r].state = .retryWait) :
    exec (.retryWaitExpiry r) s = .next ((Ev.start (s.withRail r
      { s.rails[r] with retryCount := satInc 255 s.rails[r].retryCount, timer := none })).rampStart r).settle.finish := by
  simp only [exec, execRetryWaitExpiry, runEvent, Ev.start_rails, h, if_true, Ev.retryExpiry, Ev.setRail_start]

end

/-- What a state leaves once the event that made it ends: no mark is left to serve. -/
theorem next_settled {e : Ev} {t : State} (h : e.settle = Ev.start t) :
    (Host.Outcome.next e.settle.finish : Host.Outcome State Fault Refusal) = .next t := by
  rw [h, Ev.finish_start]

/-- An answer that completes a step with a note that is not DRAIN_LATE lets the plan go on (R52). -/
theorem State.goesOnWith_completed (s : State) (run : Run) {c : Cause} (hc : c ≠ .drainLate) :
    s.goesOnWith run (.completed c) c := ⟨rfl, fun h => absurd h hc⟩

/-- A late end of a drain that fails its RAIL_OFF step begins the tail, here with a WAIT (R52, R59). -/
theorem Ev.settle_answerLate (s : State) {r : Rail} {run : Run} {ms : Nat} (hr : s.run = some run)
    (hw : run.wait = .railOff r) (ht : run.inTail = false) (hp : ¬ s.passesOver run) (ho : s.tailOpensWithWait run ms) :
    ((Ev.start s).answerOff r (.completed .drainLate)).settle = Ev.start { s with
      run := some { s.tailWaiting run .failed .drainLate ms with stepsDone := run.stepsDone + 1 } } := by
  let run' : Run := { run with wait := .nothing }
  have hwait : (Ev.start s).waitOf = .railOff r := by simp [State.waitOf, hr, hw]
  have hstop : (s.stepOf run.plan run.current).stops run.plan = true := by
    simpa [State.passesOver_iff] using hp
  have hact (e : Ev) (h : e.cfg = s.cfg) :
      e.actOnAnswer run'.counted (.completed .drainLate) = e.actOnAnswer run'.counted (.missed .drainLate) := by
    have hs : (e.stepOf run'.counted.plan run'.counted.current).stops run'.counted.plan = true := by
      rw [State.stepOf, h]
      exact hstop
    simp only [Ev.actOnAnswer, hs, reduceCtorEq, and_self, if_true, if_false]
  have hsteps : Ev.runSteps stepFuel (Ev.answered s run (.completed .drainLate))
      = Ev.runSteps stepFuel (Ev.answered s run (.missed .drainLate)) := by
    rw [stepFuel, Ev.runSteps_answered 39 (Ev.answered s run (.completed .drainLate)) (run := run') rfl rfl,
      Ev.runSteps_answered 39 (Ev.answered s run (.missed .drainLate)) (run := run') rfl rfl]
    exact congrArg (Ev.runSteps 39) (hact _ rfl)
  have hend := Ev.runSteps_tail 39 (Ev.answered s run (.missed .drainLate)) (run := run') rfl rfl hp ht ho
  rw [Ev.answerOff_waiting _ _ hwait, Ev.answer_start s _ hr,
    Ev.settle_of_runSteps _ _ (hsteps.trans hend) rfl rfl rfl]
  rfl

end Sys2Proof.Machine

namespace Sys2Proof.Machine

/-! ### The third conversion -/

/-- The record of an input after a completion, in its minimum and maximum (R92). -/
theorem ChanRec.update_eq (c : ChanRec) (code : Nat) (scaled : Int) : c.update code scaled = c.after code scaled := by
  have hmin : (if code < c.minCode then code else c.minCode) = min c.minCode code := by
    split <;> omega
  have hmax : (if c.maxCode < code then code else c.maxCode) = max c.maxCode code := by
    split <;> omega
  have hclip : isClipped code = decide (code = 0 ∨ code = 4095) := by simp [isClipped]
  simp only [ChanRec.update, ChanRec.after, hmin, hmax, hclip, decide_eq_true_eq]

/-- Inputs 3 to 14 are the rails' (R88). -/
theorem scalingKind_rail : ∀ i : Fin 15, 3 ≤ i.val → scalingKind i = .rail := by
  decide

/-- A rail input's code is scaled with the rail's fullscale_mV (R91). -/
theorem State.scale_rail (s : State) {i : Fin 15} (hi : 3 ≤ i.val) (code : Nat) :
    s.scale i code = (code * (s.railCfg (inputRail i)).fullscaleMV / 4096 : Nat) := by
  simp only [State.scale, scaledValue, scalingKind_rail i hi]

section
variable (s : State) {r : Rail} (code : Code) (i : Fin 15) (hc : s.scan.conv = some .slow) (hp : s.scan.pointer = i)
  (hi : 3 ≤ i.val) (hr : inputRail i = r)
include hc hp hi hr

/-- The third conversion on a rail input is recorded and handed to the rail (R25, R92, R94). -/
theorem exec_slowConversion_rail :
    let mv := code.toNat * (s.railCfg r).fullscaleMV / 4096
    exec (.slowConversion code) s = .next ((Ev.start (s.railRead i code mv)).railConversion r mv).finish := by
  subst hp hr
  simp only [exec, execSlowConversion, runEvent, Ev.start_scan, hc, if_true, Ev.slowCompletion, scalingKind_rail _ hi,
    Ev.recordCode, ChanRec.update_eq]
  rw [show (Ev.start s).scale = s.scale from rfl, State.scale_rail s hi]
  rfl

/-- A conversion of an unused rail, or of one with monitor PG, writes last mV and no more (R25). -/
theorem exec_slowConversion_unread (h : (s.railCfg r).used = false ∨ (s.railCfg r).monitor = .pg) :
    let mv := code.toNat * (s.railCfg r).fullscaleMV / 4096
    exec (.slowConversion code) s = .next ((s.railRead i code mv).withRail r { s.rails[r] with lastMV := mv }) := by
  intro mv
  have hno : ((s.railCfg r).used && (s.railCfg r).monitor.readsWindow) = false := by
    obtain h | h := h <;> simp [h, Monitor.readsWindow]
  rw [exec_slowConversion_rail s code i hc hp hi hr]
  exact congrArg (fun e : Ev => Host.Outcome.next e.finish) (if_neg fun h => Bool.false_ne_true (hno.symm.trans h))

/-- A conversion of a used rail with monitor WINDOW or BOTH writes last mV and is judged (R25). -/
theorem exec_slowConversion_judged (hu : (s.railCfg r).used = true) (hm : (s.railCfg r).monitor ≠ .pg) :
    let mv := code.toNat * (s.railCfg r).fullscaleMV / 4096
    exec (.slowConversion code) s = .next
      ((Ev.start ((s.railRead i code mv).withRail r { s.rails[r] with lastMV := mv })).judgeConversion r mv).finish := by
  intro mv
  have hyes : ((s.railCfg r).used && (s.railCfg r).monitor.readsWindow) = true := by
    rw [hu]
    cases h : (s.railCfg r).monitor with
    | pg => exact absurd h hm
    | window | both => rfl
  rw [exec_slowConversion_rail s code i hc hp hi hr]
  exact congrArg (fun e : Ev => Host.Outcome.next e.finish) (if_pos hyes)

end

end Sys2Proof.Machine

namespace Sys2Proof.Machine

/-- A conversion of a DRAINING rail at or below drain_mV ends the drain in time (R31). -/
theorem Ev.judgeConversion_drained (s : State) {r : Rail} {mv : Nat} (hx : s.rails[r].state = .draining)
    (h : mv ≤ (s.railCfg r).drainMV) : (Ev.start s).judgeConversion r mv = ((Ev.start s).drainEnd r false).settle := by
  have hd : (Ev.start s).drainConversion r mv = (Ev.start s).drainEnd r false := if_pos h
  simp only [Ev.judgeConversion, Ev.start_rails, hx, hd]

/-- Settles O52: the drain's destination says what its end makes of the rail, and the settling what the answer it marks
makes of a waiting step. -/
theorem drainsAndRetriesEnd : Obligations.DrainsAndRetriesEnd := by
  intro s r c x late off shed faulted rail expires goesShed lateShed
  let s1 : State := s.occurred (srcRail r) late
  have hexp (hx : x.state = .draining) {e : Ev} {t : State} (h : (Ev.start s1).drainEnd r true = e)
      (ht : e.settle = Ev.start (t.occurred (srcRail r) late)) : expires t := by
    show exec _ _ = _
    rw [exec_drainTimeout s r hx, h, next_settled ht]
  have hshed (k : Nat) (hx : x.state = .draining) (hs : s.railShed r = true)
      (h : (Ev.start s1).drainEnd r true = (Ev.start s1).beginAttempt r k) : lateShed x := by
    have h' := h.trans (Ev.beginAttempt_shed s1 k hs)
    have ha := Ev.settle_answerOn (s1.withRail r x.goneShed) (r := r) (.completed .held) (note := .held)
    exact ⟨fun hw => hexp hx h' (ha.1 hw),
      fun run ms hw => hexp hx h' (ha.2 run ms hw (State.goesOnWith_completed _ run (by decide)))⟩
  have hramp (k : Nat) (hx : x.state = .draining) (hs : s.railShed r = false) (hn : s.notMetAtOnce r)
      (h : (Ev.start s1).drainEnd r true = (Ev.start s1).beginAttempt r k) : expires (rail (s.rampingAt r x k)) :=
    hexp hx (h.trans (Ev.beginAttempt_ramps s1 k hs hn)) (Ev.settle_start _)
  refine ⟨fun hx => ?_, fun hx hd hc => ?_, fun hx hd hc hw => ?_, fun hx hd => ?_,
    fun hx hd => hexp hx (Ev.drainEnd_retryWait s1 true hd) (Ev.settle_start _), fun hx hd => ?_, fun hx hd => ?_,
    fun hx => ?_, fun hx => ?_⟩
  · simp only [exec, execDrainTimeout, runEvent]
    rw [if_neg (by exact hx), Ev.finish_start]
  · have hend (hw : s.waitOf ≠ .railOn r) := Ev.drainEnd_off s1 true hd hc hw
    have ha := Ev.settle_answerOff (s1.withRail r x.goneOff) (r := r) (.completed .drainLate) (note := .drainLate)
    refine ⟨fun hw => hexp hx (hend hw.1) (ha.1 hw),
      fun run ms hw hp => hexp hx (hend (by rw [hw.waitOf]; nofun)) (ha.2 run ms hw ⟨rfl, fun _ => hp⟩),
      fun run ms hr hw ht hp ho => hexp hx (hend (by simp [State.waitOf, hr, hw]))
        (Ev.settle_answerLate (s1.withRail r x.goneOff) hr hw ht hp ho), fun run hr hw hs hn => ?_, ?_⟩
    · have hw' : s.waitOf = .railOn r := by simp [State.waitOf, hr, hw]
      exact hexp hx ((Ev.drainEnd_wanted s1 true hd hw').trans (Ev.rampStart_record s1 _ hs hn rfl)) (Ev.settle_start _)
    · intro code i hconv hptr hi hin mv t hu hm hmv
      let s2 : State := (s.railRead i code mv).withRail r { x with lastMV := mv }
      have hs2 : s2.rails[r] = { x with lastMV := mv } := State.withRail_get _ _ _
      have hoff (hw : s.waitOf ≠ .railOn r) : exec (.slowConversion code) s
          = .next ((Ev.start t).answerOff r (.completed .none)).settle.finish := by
        rw [exec_slowConversion_judged s code i hconv hptr hi hin hu hm,
          Ev.judgeConversion_drained s2 (by rw [hs2]; exact hx) hmv,
          Ev.drainEnd_off s2 false (by rw [hs2]; exact hd) (by rw [hs2]; exact hc) hw, hs2, State.withRail_withRail]
        rfl
      have hb := Ev.settle_answerOff t (r := r) (.completed .none) (note := .none)
      exact ⟨fun hw => (hoff hw.1).trans (next_settled (hb.1 hw)), fun run ms hw =>
        (hoff (by rw [hw.waitOf]; nofun)).trans
          (next_settled (hb.2 run ms hw (State.goesOnWith_completed _ run (by decide))))⟩
  · have hend {t : State} (h : (Ev.start (s1.withRail r x.goneOff)).homeTest r = Ev.start t) (ht : t.run = s.run) :=
      Ev.drainEnd_cleared s1 true hd hc hw h ht
    refine ⟨fun h => hexp hx (hend (Ev.homeTest_away (s1.withRail r x.goneOff) h) rfl) ?_,
      fun h hr => ⟨fun hs => ?_, fun hs hn => ?_⟩⟩
    · rw [Ev.settle_start, State.withRail_get, State.withRail_withRail]
      rfl
    · exact hexp hx (hend ((Ev.homeTest_home (s1.withRail r x.goneOff) h hr).trans
        ((Ev.rampStart_shedRecord s1 _ hs).trans (Ev.answerOn_unheard _ _ hw.1))) rfl) (Ev.settle_start _)
    · exact hexp hx (hend ((Ev.homeTest_home (s1.withRail r x.goneOff) h hr).trans
        (Ev.rampStart_record s1 _ hs hn rfl)) rfl) (Ev.settle_start _)
  · have hend := Ev.drainEnd_faulted s1 true hd
    have ha := Ev.settle_answerBoth (s1.withRail r x.goneFaulted) (r := r) (.missed .latched) (.completed .drainLate)
      (note := .drainLate) (note' := .latched)
    exact ⟨fun hw => hexp hx hend (ha.1 hw), fun run ms hw hp => hexp hx hend (ha.2.1 run ms hw ⟨rfl, fun _ => hp⟩),
      fun run ms hw hp => hexp hx hend (ha.2.2 run ms hw ⟨rfl, by decide, hp⟩)⟩
  · have hend := Ev.drainEnd_ramp s1 true hd
    exact ⟨fun hs hn => hramp _ hx hs hn hend, fun hs => hshed _ hx hs hend⟩
  · have hend := Ev.drainEnd_shed s1 true hd
    exact ⟨fun hs => hshed 1 hx hs hend, fun hs hn => hramp 1 hx hs hn hend⟩
  · simp only [exec, execRetryWaitExpiry, runEvent]
    rw [if_neg (by exact hx), Ev.finish_start]
  · intro y
    refine ⟨fun hs hn => ?_, fun hs => ?_⟩
    · rw [exec_retryWaitExpiry s r hx, Ev.rampStart_record s _ hs hn (by rfl), next_settled (Ev.settle_start _)]
      rfl
    · have ha := Ev.settle_answerOn (s.withRail r y.goneShed) (r := r) (.completed .held) (note := .held)
      have hx' := exec_retryWaitExpiry s r hx
      rw [Ev.rampStart_shedRecord s _ hs] at hx'
      exact ⟨fun hw => hx'.trans (next_settled (ha.1 hw)),
        fun run ms hw => hx'.trans (next_settled (ha.2 run ms hw (State.goesOnWith_completed _ run (by decide))))⟩
end Sys2Proof.Machine

namespace Sys2Proof.Machine

/-! ### A rail's fault_action -/

/-- Where PANEL_SNAP opens with a WAIT the tables in force are not blank: snap requests are heard (R45). -/
theorem State.snapReady.live {s : State} {ms : Nat} (h : s.snapReady ms) : s.sys ≠ .starting ∧ s.sys ≠ .unconfigured := by
  obtain ⟨-, -, -, -, hb, -⟩ := h
  have hblank : (blankTables.plan .panelSnap).bodyLast = 0 := by decide
  refine ⟨fun hs => hb ?_, fun hs => hb ?_⟩ <;> simpa [State.cfg, hs] using hblank

/-- A request for an IDLE snap plan makes it pending in every state that hears one (R45, R63). -/
theorem Ev.snapRequest_pends (e : Ev) {p : PlanId} (c : Cause) (h1 : e.sys ≠ .starting) (h2 : e.sys ≠ .unconfigured)
    (h : e.planStatus p = .idle) :
    e.snapRequest p c = e.upd { e.toState with reqs := e.reqs.put p (some c) } e.ans := by
  unfold Ev.snapRequest
  split
  · contradiction
  · contradiction
  all_goals rw [h]; rfl

section
variable (e : Ev) (c : Cause) {ms : Nat} (h : e.snapReady ms)
include h

/-- Both snap plans are IDLE there. -/
theorem Ev.planStatus_snapReady (p : PlanId) : e.planStatus p = .idle := by
  obtain ⟨hrun, hq, -⟩ := h
  refine State.planStatus_idle _ (by simp [hrun]) ?_
  cases p <;> simp [State.isPending, hq, PendingSet.get, PendingSet.none]

/-- With PANEL_SNAP pending, behind it perhaps BOARD_SNAP, the arbiter starts PANEL_SNAP (R61). -/
theorem Ev.takeSnaps_starts (board : Option Cause) :
    Ev.takeSnaps { e with reqs := { PendingSet.none with panelSnap := some c, boardSnap := board } }
      = { e.upd { e.snapBegun c ms with reqs := { PendingSet.none with boardSnap := board } } none with
          arb := false, tgtChanged := false, planEnded := false } := by
  obtain ⟨h1, h2⟩ := h.live
  obtain ⟨hrun, -, hsup, hdip, hw⟩ := h
  let x : Ev := { e with reqs := { PendingSet.none with panelSnap := some c, boardSnap := board } }
  have htake : x.takeSnaps = x.arbitrate := by
    have hx : x.run = none := hrun
    simp only [Ev.takeSnaps, hx]
  exact htake.trans (Ev.arbitrate_starts x .panelSnap hrun (Ev.choose_panelSnap x h1 h2 rfl) hsup hdip hw)

/-- A request for PANEL_SNAP starts it (R61, R63). -/
theorem Ev.snapRequest_starts : (e.snapRequest .panelSnap c).takeSnaps
    = { e.upd (e.snapBegun c ms) none with arb := false, tgtChanged := false, planEnded := false } := by
  obtain ⟨h1, h2⟩ := h.live
  have hq := h.2.1
  have hreq : e.snapRequest .panelSnap c = { e with reqs := { PendingSet.none with panelSnap := some c } } := by
    rw [Ev.snapRequest_pends e c h1 h2 (e.planStatus_snapReady h .panelSnap), hq]
    rfl
  rw [hreq]
  refine (e.takeSnaps_starts c h none).trans ?_
  rw [show ({ PendingSet.none with boardSnap := none } : PendingSet) = (e.snapBegun c ms).reqs from hq.symm]

/-- A request for both starts PANEL_SNAP, BOARD_SNAP pending behind it (R61, R63). -/
theorem Ev.snapBoth_starts : (e.snapBoth c).takeSnaps
    = { e.upd (e.snapsBegun c ms) none with arb := false, tgtChanged := false, planEnded := false } := by
  obtain ⟨h1, h2⟩ := h.live
  obtain ⟨hrun, hq, -⟩ := id h
  let y : Ev := { e with reqs := { PendingSet.none with panelSnap := some c } }
  have hreq : e.snapRequest .panelSnap c = y := by
    rw [Ev.snapRequest_pends e c h1 h2 (e.planStatus_snapReady h .panelSnap), hq]
    rfl
  have hidle : y.planStatus .boardSnap = .idle :=
    State.planStatus_idle y.toState (fun run hr => absurd (hr.symm.trans hrun) (Option.some_ne_none run)) rfl
  have hboth : e.snapBoth c
      = { e with reqs := { PendingSet.none with panelSnap := some c, boardSnap := some c } } := by
    rw [Ev.snapBoth, hreq, Ev.snapRequest_pends y c h1 h2 hidle]
    rfl
  rw [hboth]
  exact e.takeSnaps_starts c h (some c)

end

/-- A target that stays is no news to the engine (R3). -/
theorem Ev.retarget_same (s : State) (g : Target) (h : s.target = g) :
    ((Ev.start s).writeTarget g).reportTarget = Ev.start s := by
  rw [show (Ev.start s).writeTarget g = Ev.start s from if_pos h.symm]
  rfl

/-- A new target over an idle engine queues STATE and disarms the return (R2, R3). -/
theorem Ev.retarget_idle (s : State) (g : Target) (h : s.target ≠ g) (hr : s.run = none) :
    ((Ev.start s).writeTarget g).reportTarget
      = (({ Ev.start s with target := g, retArmed := false } : Ev)).stateNotice := by
  rw [show (Ev.start s).writeTarget g = { (({ Ev.start s with target := g, retArmed := false } : Ev)).stateNotice with
      tgtChanged := true } from if_neg (Ne.symm h), Ev.reportTarget_unmoved _ (.inr hr)]
  rfl

/-- A rail's source is none of the other three (R148). -/
theorem srcRail_ne_overtemp (r : Rail) : srcRail r ≠ srcOvertemp := by
  intro h
  have := congrArg Fin.val h
  simp only [srcRail, srcOvertemp] at this
  omega

section
variable (s : State) {ms : Nat} (h : s.snapReady ms)
include h

/-- Action PANEL over an idle engine: PANEL_SNAP starts (R154). -/
theorem Ev.actPanel_starts (src : Fin 15) : (Ev.start s).actPanel.finish = s.acted src .panel ms := by
  have hr : s.run = none := h.1
  by_cases ht : s.target = .panelOn
  · let x : Ev := (({ Ev.start s with target := .boardOn, retArmed := false } : Ev)).stateNotice
    have hx : x.snapReady ms := h
    have hacted : s.acted src .panel ms
        = (({ s with target := .boardOn, retArmed := false } : State).snapBegun .fault ms).stateTold := if_pos ht
    have hact : (Ev.start s).actPanel = (x.snapRequest .panelSnap .fault).takeSnaps := by
      have h1 : (Ev.start s).target = .panelOn := ht
      simp only [Ev.actPanel, if_pos h1, Ev.retarget_idle s .boardOn (by rw [ht]; decide) hr, x]
    rw [hact, Ev.snapRequest_starts x _ hx, Ev.finish_told _ (q := s.notices) rfl rfl rfl, hacted]
    rfl
  · have hacted : s.acted src .panel ms = s.snapBegun .fault ms := if_neg ht
    have hact : (Ev.start s).actPanel = ((Ev.start s).snapRequest .panelSnap .fault).takeSnaps := by
      have h1 : ¬ (Ev.start s).target = .panelOn := ht
      simp only [Ev.actPanel, if_neg h1]
    rw [hact, Ev.snapRequest_starts (Ev.start s) _ h, hacted]
    rfl

/-- Actions SYSTEM and LOCKOUT of a rail over an idle engine: the shutdown record opens and PANEL_SNAP starts, with
BOARD_SNAP behind it (R155). -/
theorem Ev.actSystem_starts (r : Rail) :
    ((Ev.start s).actSystem (srcRail r)).finish = s.forcedOff .fault (srcRail r).val .fault ms := by
  have hact (x : Ev) (hx : ((Ev.start s).writeTarget .standby).reportTarget = x) (hready : x.snapReady ms) :
      (Ev.start s).actSystem (srcRail r)
        = { x.upd (({ x.toState with
              shutdown := { ShutdownRec.opened .fault with source := (srcRail r).val }, ride.slot := .none } :
                State).snapsBegun .fault ms) none with arb := false, tgtChanged := false, planEnded := false } := by
    have hidle : (Ev.start s).planStatus .boardSnap = .idle := Ev.planStatus_snapReady _ h _
    have hopen : x.openByFault (srcRail r) = x.openShutdown .fault (srcRail r).val := if_neg (srcRail_ne_overtemp r)
    have hcause : snapCauseOf (srcRail r) = .fault := if_neg (srcRail_ne_overtemp r)
    simp only [Ev.actSystem, hx, hidle, if_true, hopen, hcause]
    exact Ev.snapBoth_starts (x.openShutdown .fault (srcRail r).val) .fault hready
  by_cases ht : s.target = .standby
  · rw [hact _ (Ev.retarget_same s .standby ht) h]
    simp only [State.forcedOff, if_pos ht]
    rw [← ht]
    rfl
  · let x : Ev := (({ Ev.start s with target := .standby, retArmed := false } : Ev)).stateNotice
    rw [hact x (Ev.retarget_idle s .standby ht h.1) h, Ev.finish_told _ (q := s.notices) rfl rfl rfl]
    simp only [State.forcedOff, if_neg ht]
    rfl

end

/-- A rail's fault_action at the end of its event: DROP leaves all else alone, the others start PANEL_SNAP (R154,
R155). -/
theorem Ev.settle_acted (s : State) (r : Rail) (a : RailAction) {ms : Nat} (h : a = .drop ∨ s.snapReady ms) :
    ({ Ev.start s with act := some (srcRail r, a.toAction) } : Ev).settle.finish = s.acted (srcRail r) a ms := by
  let e : Ev := { Ev.start s with act := some (srcRail r, a.toAction) }
  have hserve : e.serve = e := by
    simp only [Ev.serve, stepFuel, Ev.runSteps_quiet _ e rfl]
    rfl
  have hsettle : e.settle = e.applyAct := congrArg Ev.applyAct hserve
  show e.settle.finish = _
  rw [hsettle]
  cases a with
  | drop => rfl
  | panel => exact Ev.actPanel_starts s (h.resolve_left nofun) _
  | system | lockout => exact Ev.actSystem_starts s (h.resolve_left nofun) r

end Sys2Proof.Machine

namespace Sys2Proof.Machine

/-! ### The ladder -/

/-- A latching occurrence of a rail with its fault_action, at the end of its event (R154). -/
theorem Ev.settle_occurrenceAct (s : State) (r : Rail) (o : Occurrence) (a : RailAction) {ms : Nat}
    (ho : o.action = a.toAction) (h : a = .drop ∨ s.snapReady ms) :
    ((Ev.start s).occurrenceAct (srcRail r) o).settle.finish
      = (s.occurred (srcRail r) o).acted (srcRail r) a ms := by
  rw [Ev.occurrenceAct, Ev.occurrence_start, ho]
  exact Ev.settle_acted (s.occurred (srcRail r) o) r a h

/-- With no detector present a drain that goes on begins with the rail's record alone (R30). -/
theorem Ev.drainStart_start (s : State) {r : Rail} (d : Dest) (h1 : s.rails[r].winDetector = false)
    (h2 : s.rails[r].pgDetector = false) (h : (s.railCfg r).monitor ≠ .pg ∨ s.rails[r].pgLevel = .high) :
    (Ev.start s).drainStart r d = Ev.start (s.withRail r (s.drainingTo r s.rails[r] d)) :=
  Ev.drainStart_drains (Ev.start s) d h1 h2 h

section
variable (s : State) {r : Rail} (hx : s.rails[r].state = .ramping)
include hx

/-- The deadline of an attempt below the ladder's end: the rail drains to the next attempt (R28). -/
theorem exec_rampDeadlineExpiry_climbs (hk : s.rails[r].attempt < (s.railCfg r).ladder) :
    exec (.rampDeadlineExpiry r) s = .next ((Ev.start s).drainStart r .ramp).settle.finish := by
  have hexp : (Ev.start s).rampExpiry r = (Ev.start s).drainStart r .ramp := if_pos hk
  simp only [exec, execRampDeadlineExpiry, runEvent, Ev.start_rails, hx, if_true, hexp]

/-- The deadline of the ladder's last attempt: the waiting step misses, the rail drains to FAULTED, RAMP_TIMEOUT is
recorded (R29). -/
theorem exec_rampDeadlineExpiry_fails (hk : (s.railCfg r).ladder ≤ s.rails[r].attempt) :
    exec (.rampDeadlineExpiry r) s = .next
      ((((Ev.start s).answerOn r (.missed .rampTimeout)).drainStart r .faulted).occurrenceAct (srcRail r)
        { cause := .rampTimeout, value := s.rails[r].lastMV, latching := true, withCondition := false
          action := if s.waitOf = .railOn r then .drop else (s.railCfg r).faultAction.toAction }).settle.finish := by
  have hexp : (Ev.start s).rampExpiry r
      = (((Ev.start s).answerOn r (.missed .rampTimeout)).drainStart r .faulted).occurrenceAct (srcRail r)
        { cause := .rampTimeout, value := s.rails[r].lastMV, latching := true, withCondition := false
          action := if s.waitOf = .railOn r then .drop else (s.railCfg r).faultAction.toAction } :=
    if_neg (Nat.not_lt.2 hk)
  simp only [exec, execRampDeadlineExpiry, runEvent, Ev.start_rails, hx, if_true, hexp]

end

/-- Settles O51: the attempt's number against the ladder decides between the next attempt and the failure, whose action
the settling applies. -/
theorem rampDeadlineClimbsTheLadder : Obligations.RampDeadlineClimbsTheLadder := by
  intro s r c x failed
  refine ⟨fun hx => ?_, fun hx h1 h2 hgo => ⟨fun hk => ?_, fun ms hk hact => ?_, fun run ms hk hr hw hnext hm => ?_⟩⟩
  · simp only [exec, execRampDeadlineExpiry, runEvent]
    rw [if_neg (by exact hx), Ev.finish_start]
  · rw [exec_rampDeadlineExpiry_climbs s hx hk, Ev.drainStart_start s .ramp h1 h2 hgo, next_settled (Ev.settle_start _)]
    rfl
  · have hno : s.waitOf ≠ .railOn r := by
      obtain ⟨-, hno, -⟩ | ⟨hrun, -⟩ := hact
      · exact hno
      · simp [State.waitOf, hrun]
    rw [exec_rampDeadlineExpiry_fails s hx hk, if_neg hno, Ev.answerOn_unheard _ (Ev.start s) hno,
      Ev.drainStart_start s .faulted h1 h2 hgo]
    exact congrArg Host.Outcome.next (Ev.settle_occurrenceAct (s.withRail r (s.drainingTo r x .faulted)) r (failed _)
      c.faultAction rfl (hact.imp (fun h => h.1) id))
  · have hwait : s.waitOf = .railOn r := by simp [State.waitOf, hr, hw]
    let run' : Run := { run with wait := .nothing }
    let k : Ev := Ev.answered s run (.missed .rampTimeout)
    have hanswer : (Ev.start s).answerOn r (.missed .rampTimeout) = k :=
      (Ev.answerOn_waiting (Ev.start s) _ hwait).trans (Ev.answer_start s _ hr)
    let t : State := (k.withRail r (s.drainingTo r x .faulted)).occurred (srcRail r) (failed .drop)
    let e : Ev := { k.upd t k.ans with act := some (srcRail r, .drop) }
    have hdrain : (k.drainStart r .faulted).occurrenceAct (srcRail r) (failed .drop) = e := by
      rw [Ev.drainStart_drains k .faulted h1 h2 hgo, Ev.occurrenceAct, Ev.occurrence_eq]
      rfl
    have hsteps : Ev.runSteps stepFuel e = e.upd (t.passed run' ms .rampTimeout) none :=
      Ev.runSteps_passed 39 e (run := run') rfl rfl ⟨rfl, by decide, .inl hm⟩ hnext
    have hserve : e.serve = e.upd (t.passed run' ms .rampTimeout) none := by
      simp only [Ev.serve, hsteps]
      rfl
    rw [exec_rampDeadlineExpiry_fails s hx hk, if_pos hwait, hanswer, hdrain, Ev.settle, hserve]
    rfl

end Sys2Proof.Machine

namespace Sys2Proof.Machine

/-! ### CLEAR_FAULT of a rail -/

/-- The state with a record released and FAULT queued (R151, R153). -/
def State.releasedFault (s : State) (src : Fin 15) : State :=
  let f := s.faults[src].released
  { s with faults := s.faults.set src f, notices := enqueue s.notices (.fault src) f.noticeBody }

/-- A clear that names a rail's LATCHED record releases it and is told to the rail (R152, R153). -/
theorem Ev.clearOne_latched (s : State) (r : Rail) (h : s.faults[srcRail r].state = .latched) :
    (Ev.start s).clearOne (srcRail r) = (Ev.start (s.releasedFault (srcRail r))).railClear r := by
  have hsrc : srcRail r ≠ srcBusCurrent := by
    intro hc
    have := congrArg Fin.val hc
    simp only [srcRail, srcBusCurrent] at this
    omega
  have hlt : (srcRail r).val < 12 := r.isLt
  have hrelease : ((Ev.start s).setFault (srcRail r) FaultRec.released).faultNotice (srcRail r)
      = Ev.start (s.releasedFault (srcRail r)) := by
    simp only [Ev.faultNotice, Ev.setFault, Ev.notice, State.releasedFault, FaultRec.noticeBody]
    simp [Ev.start]
  simp only [Ev.clearOne, Ev.start_faults, h, Ev.releaseLimitOf, if_neg hsrc, Ev.clearRailOf, dif_pos hlt, hrelease]
  rfl

/-- The clear of a FAULTED rail takes it to the home test, its retry count at 0 (R42). -/
theorem Ev.railClear_faulted (s : State) {r : Rail} (h : s.rails[r].state = .faulted) :
    (Ev.start s).railClear r = (Ev.start (s.withRail r s.rails[r].untried)).homeTest r := by
  simp only [Ev.railClear, Ev.start_rails, h]
  rfl

/-- CLEAR_FAULT of a rail's LATCHED record outside STARTING and LOCKOUT: what the rail makes of the clear stands, and the
reply tells the record's state (R152). -/
theorem exec_clearFault_rail (s t : State) (tag : Byte) (r : Rail) (hr : s.ready) (h1 : s.sys ≠ .starting)
    (hf : s.faults[srcRail r].state = .latched)
    (hc : (Ev.start (s.releasedFault (srcRail r))).railClear r = Ev.start t) (hsys : t.sys ≠ .lockout)
    (ht : t.faults = (s.releasedFault (srcRail r)).faults) :
    exec (.clearFault tag [BitVec.ofNat 8 r.val]) s = .next (t.replied ⟨0x0A, tag, [BitVec.ofNat 8 r.val]⟩ .ok
      [codeIn faultStates s.faults[srcRail r].released.state]) := by
  have hne : ¬ s.faults[srcRail r].state = .active := by
    rw [hf]
    decide
  have hexit : (Ev.start t).lockoutExit = Ev.start t := if_neg fun h => hsys h.1
  have hstate : t.faults[srcRail r] = s.faults[srcRail r].released := by
    rw [ht]
    simp [State.releasedFault]
  have hserved : (Ev.start s).served ⟨0x0A, tag, [BitVec.ofNat 8 r.val]⟩
      = { ev := Ev.start t, status := .ok, body := [codeIn faultStates s.faults[srcRail r].released.state] } := by
    rw [Ev.served_started _ _ h1]
    show (Ev.start s).serveClearFault _ = _
    simp only [Ev.serveClearFault, clearArg_rail, Ev.start_faults, if_neg hne, Ev.clearOne_latched s r hf, hc, hexit,
      Ev.settle_start, hstate]
  refine (request_answered 0x0A tag _ s hr).trans ?_
  rw [hserved]
  rfl

/-- Settles O29: the clear releases the record and the home test decides between OFF and a ramp. -/
theorem clearFaultReleasesARail : Obligations.ClearFaultReleasesARail := by
  intro s tag r hready h1 h2 hx hf b f' n'
  let s1 : State := s.releasedFault (srcRail r)
  have hclear : (Ev.start s1).railClear r = (Ev.start (s1.withRail r s.rails[r].untried)).homeTest r :=
    Ev.railClear_faulted s1 hx
  refine ⟨fun haway => ?_, fun hhome hrun hs hn => ?_⟩
  · rw [Ev.homeTest_away (s1.withRail r s.rails[r].untried) haway, State.withRail_get, State.withRail_withRail] at hclear
    exact exec_clearFault_rail s _ tag r hready h1 hf hclear h2 rfl
  · have hn' : s.notMetAtOnce r := hn.imp id .inl
    rw [Ev.homeTest_home (s1.withRail r s.rails[r].untried) hhome hrun, Ev.rampStart_record s1 _ hs hn' (by rfl)]
      at hclear
    refine (exec_clearFault_rail s _ tag r hready h1 hf hclear h2 rfl).trans ?_
    simp only [State.rampingAt, Nat.sub_self, pow_zero, Nat.mul_one]
    rfl

end Sys2Proof.Machine

namespace Sys2Proof.Machine

/-! ### Faults on an ON rail -/

/-- Neither rail step waits over an idle engine. -/
theorem State.snapReady.noStepOn {s : State} {ms : Nat} (h : s.snapReady ms) (r : Rail) : s.noStepOn r := by
  obtain ⟨hrun, -⟩ := h
  simp [State.noStepOn, State.waitOf, hrun]

section
variable (s : State) {r : Rail}

/-- With the rail's condition absent its detectors are dropped without a word (R33, R37). -/
theorem Ev.dropDetectors_absent (h : s.faults[srcRail r].condition = false) : (Ev.start s).dropDetectors r
    = Ev.start (s.withRail r { s.rails[r] with winDetector := false, pgDetector := false }) := by
  unfold Ev.dropDetectors
  split
  · exact Ev.conditionEnded_absent _ _ h
  · rename_i hd
    obtain ⟨h1, h2⟩ : s.rails[r].winDetector = false ∧ s.rails[r].pgDetector = false := by
      simpa [-Fin.getElem_fin] using hd
    have hself (x : RailRt) (h1 : x.winDetector = false) (h2 : x.pgDetector = false) :
        { x with winDetector := false, pgDetector := false } = x := by
      cases x
      simp_all
    rw [hself _ h1 h2, State.withRail_self]

/-- What the begin of a drain writes where the rail's condition is absent (R30). -/
theorem Ev.drainStart_absent (d : Dest) (h : s.faults[srcRail r].condition = false) :
    (Ev.start s).drainStart r d
      = if (s.railCfg r).monitor = .pg ∧ s.rails[r].pgLevel = .low then
          (Ev.start (s.withRail r (s.drainingTo r s.rails[r] d))).drainEnd r false
        else Ev.start (s.withRail r (s.drainingTo r s.rails[r] d)) := by
  have hrec : ((Ev.start s).dropDetectors r).setRail r (fun x => { x with
      state := .draining, dest := d, timer := (Ev.start s).after ((Ev.start s).railCfg r).drainMs, winHalf := false
      clearedInDrain := false }) = Ev.start (s.withRail r (s.drainingTo r s.rails[r] d)) := by
    rw [Ev.dropDetectors_absent s h, Ev.setRail_start, State.withRail_get, State.withRail_withRail]
    rfl
  rw [Ev.drainStart, hrec]
  rfl

variable (cause : FaultCause) (value : Nat)

/-- Mode REPORT: a condition is reported present, and the rail stays ON (R37). -/
theorem Ev.railFault_report (h : (s.railCfg r).faultMode = .report) : (Ev.start s).railFault r cause value
    = Ev.start (s.occurred (srcRail r)
        { cause := cause, value := value, latching := false, withCondition := true, action := .none }) := by
  have h' : ((Ev.start s).railCfg r).faultMode = .report := h
  simp only [Ev.railFault, h', Ev.occurrence_start]

/-- Mode IGNORE: nothing (R38). -/
theorem Ev.railFault_ignore (h : (s.railCfg r).faultMode = .ignore) :
    (Ev.start s).railFault r cause value = Ev.start s := by
  have h' : ((Ev.start s).railCfg r).faultMode = .ignore := h
  simp only [Ev.railFault, h']

/-- Mode RETRY within its limit: a drain to RETRY_WAIT and a momentary occurrence (R36). -/
theorem Ev.railFault_retries (h : (s.railCfg r).faultMode = .retry)
    (hm : ∀ m, (s.railCfg r).retryLimit.max = some m → s.rails[r].retryCount < m) :
    (Ev.start s).railFault r cause value = ((Ev.start s).drainStart r .retryWait).occurrence (srcRail r)
        { cause := cause, value := value, latching := false, withCondition := false, action := .none } := by
  have h' : ((Ev.start s).railCfg r).faultMode = .retry := h
  have hall : ((Ev.start s).railCfg r).retryLimit.allows (Ev.start s).rails[r].retryCount = true := by
    show (s.railCfg r).retryLimit.allows s.rails[r].retryCount = true
    unfold RetryLimit.allows
    split
    · rfl
    · rename_i m hmax
      exact decide_eq_true (hm m hmax)
  simp only [Ev.railFault, h', hall, if_true, Ev.respondRetry]

/-- Mode LATCH, and mode RETRY at its limit: a drain to FAULTED and a latching occurrence with the rail's fault_action
(R35, R36). -/
theorem Ev.railFault_latches (h : (s.railCfg r).faultMode = .latch
      ∨ ∃ m, (s.railCfg r).faultMode = .retry ∧ (s.railCfg r).retryLimit.max = some m ∧ m ≤ s.rails[r].retryCount) :
    (Ev.start s).railFault r cause value = ((Ev.start s).drainStart r .faulted).occurrenceAct (srcRail r)
        { cause := cause, value := value, latching := true, withCondition := false
          action := (s.railCfg r).faultAction.toAction } := by
  obtain h | ⟨m, h, hmax, hle⟩ := h
  · have h' : ((Ev.start s).railCfg r).faultMode = .latch := h
    simp only [Ev.railFault, h']
    rfl
  · have h' : ((Ev.start s).railCfg r).faultMode = .retry := h
    have hall : ((Ev.start s).railCfg r).retryLimit.allows (Ev.start s).rails[r].retryCount = false := by
      show (s.railCfg r).retryLimit.allows s.rails[r].retryCount = false
      simp only [RetryLimit.allows, hmax]
      exact decide_eq_false (Nat.not_lt.2 hle)
    simp only [Ev.railFault, h', hall, Bool.false_eq_true, if_false]
    rfl

/-- While the other detector stands, a detector that goes is no news (R37). -/
theorem Ev.detectorGone_other (h : s.rails[r].winDetector = true ∨ s.rails[r].pgDetector = true) :
    (Ev.start s).detectorGone r = Ev.start s := by
  refine if_pos ?_
  rw [Bool.or_eq_true]
  exact h

/-- The last detector that goes ends the rail's condition (R37). -/
theorem Ev.detectorGone_last (h1 : s.rails[r].winDetector = false) (h2 : s.rails[r].pgDetector = false)
    (hf : s.faults[srcRail r].state = .active) (hc : s.faults[srcRail r].firstCause ≠ .none) :
    (Ev.start s).detectorGone r = Ev.start (s.eased (srcRail r)) := by
  have hno : ¬ (s.rails[r].winDetector || s.rails[r].pgDetector) = true := by simp [-Fin.getElem_fin, h1, h2]
  exact (if_neg hno).trans (Ev.conditionEnded_active s (srcRail r) hf hc)

end

/-! ### The power-good pin -/

/-- Every monitor but WINDOW has a PG_LOST detector (R34). -/
theorem Monitor.readsPg_of_ne_window (m : Monitor) (h : m ≠ .window) : m.readsPg = true := by
  cases m with
  | window => exact absurd rfl h
  | pg | both => rfl

section
variable (s : State) {r : Rail}

/-- A new level of the pin is looked at by the qualifier of a used rail (R24). -/
theorem exec_pgPinChange (high : Bool) (h : high ≠ s.pins.pg[r]) :
    exec (.pgPinChange r high) s = .next { s with
      pins.pg := s.pins.pg.set r high
      rails := if (s.railCfg r).used = true then s.rails.set r { s.rails[r] with
          pgTimer := if Level.ofBool high = s.rails[r].pgLevel then none
            else some (s.now + 1000 * (s.railCfg r).pgDeglitchMs) }
        else s.rails } := by
  let t : State := { s with pins.pg := s.pins.pg.set r high }
  have hpin : (Ev.start t).pins.pg[r] = high := by simp [t]
  have hexec : exec (.pgPinChange r high) s = .next ((Ev.start t).pgLook r).finish := by
    have h' : ¬ high = (Ev.start s).pins.pg[r] := h
    simp only [exec, execPgPinChange, runEvent, if_neg h']
    rfl
  rw [hexec]
  unfold Ev.pgLook
  split <;> rename_i hu
  · have hu' : (s.railCfg r).used = true := hu
    rw [hpin, if_pos hu']
    split <;> rename_i hl
    · rw [if_pos (show Level.ofBool high = s.rails[r].pgLevel from hl)]
      rfl
    · rw [if_neg (show ¬ Level.ofBool high = s.rails[r].pgLevel from hl)]
      rfl
  · have hu' : ¬ (s.railCfg r).used = true := hu
    rw [if_neg hu']
    rfl

/-- The rail's record with a qualified level (R24). -/
def RailRt.qualified (x : RailRt) (l : Level) : RailRt := { x with pgLevel := l, pgTimer := none }

/-- The qualifier's expiry qualifies the level of the pin (R24). -/
theorem exec_pgDeglitchExpiry (h : s.rails[r].pgTimer ≠ none) :
    exec (.pgDeglitchExpiry r) s
      = .next ((Ev.start s).pgQualified r (Level.ofBool s.pins.pg[r])).settle.finish := by
  have h' : (Ev.start s).rails[r].pgTimer.isSome = true := Option.isSome_iff_ne_none.2 h
  simp only [exec, execPgDeglitchExpiry, runEvent, if_pos h']
  rfl

variable (l : Level)

/-- A level qualified in OFF, SHED, RETRY_WAIT and FAULTED is written, and that is all (R24). -/
theorem Ev.pgQualified_aside (hx : s.rails[r].state = .off ∨ s.rails[r].state = .shed
    ∨ s.rails[r].state = .retryWait ∨ s.rails[r].state = .faulted) :
    (Ev.start s).pgQualified r l = Ev.start (s.withRail r (s.rails[r].qualified l)) := by
  obtain hx | hx | hx | hx := hx <;> simp only [Ev.pgQualified, Ev.start_rails, hx] <;> rfl

/-- A RAMPING rail tests its monitor condition with the level (R27). -/
theorem Ev.pgQualified_ramping (hx : s.rails[r].state = .ramping) :
    (Ev.start s).pgQualified r l = (Ev.start (s.withRail r (s.rails[r].qualified l))).tryOn r := by
  simp only [Ev.pgQualified, Ev.start_rails, hx]
  rfl

/-- A DRAINING rail with monitor PG ends its drain at LOW (R31). -/
theorem Ev.pgQualified_drained (hx : s.rails[r].state = .draining) (hm : (s.railCfg r).monitor = .pg) (hl : l = .low) :
    (Ev.start s).pgQualified r l = (Ev.start (s.withRail r (s.rails[r].qualified l))).drainEnd r false := by
  have hm' : ((Ev.start s).railCfg r).monitor = .pg := hm
  simp only [Ev.pgQualified, Ev.start_rails, hx, hm', hl, and_self, if_true]
  rfl

/-- Any other DRAINING rail drains on (R31). -/
theorem Ev.pgQualified_draining (hx : s.rails[r].state = .draining)
    (h : ¬ ((s.railCfg r).monitor = .pg ∧ l = .low)) :
    (Ev.start s).pgQualified r l = Ev.start (s.withRail r (s.rails[r].qualified l)) := by
  have h' : ¬ (((Ev.start s).railCfg r).monitor = .pg ∧ l = .low) := h
  simp only [Ev.pgQualified, Ev.start_rails, hx, if_neg h']
  rfl

section
variable (hx : s.rails[r].state = .on)
include hx

/-- An ON rail with monitor WINDOW has no PG_LOST detector (R34). -/
theorem Ev.pgQualified_unread (hm : (s.railCfg r).monitor = .window) :
    (Ev.start s).pgQualified r l = Ev.start (s.withRail r (s.rails[r].qualified l)) := by
  have hm' : ((Ev.start s).railCfg r).monitor.readsPg = false := congrArg Monitor.readsPg hm
  simp only [Ev.pgQualified, Ev.start_rails, hx, hm', Bool.false_eq_true, if_false]
  rfl

variable (hm : (s.railCfg r).monitor ≠ .window)
include hm

/-- LOW on an ON rail is PG_LOST, unless the detector has told it already (R34). -/
theorem Ev.pgQualified_low : (Ev.start s).pgQualified r .low
    = if s.rails[r].pgDetector = true then Ev.start (s.withRail r (s.rails[r].qualified .low))
      else (Ev.start (s.withRail r { s.rails[r].qualified .low with pgDetector := true })).railFault r .pgLost
        s.rails[r].lastMV := by
  have hm' : ((Ev.start s).railCfg r).monitor.readsPg = true := (s.railCfg r).monitor.readsPg_of_ne_window hm
  simp only [Ev.pgQualified, Ev.start_rails, hx, hm', if_true, Ev.setRail_start, State.withRail_get,
    State.withRail_withRail, RailRt.qualified]

/-- HIGH on an ON rail ends PG_LOST, if it was told (R34, R37). -/
theorem Ev.pgQualified_high : (Ev.start s).pgQualified r .high
    = if s.rails[r].pgDetector = true then
        (Ev.start (s.withRail r { s.rails[r].qualified .high with pgDetector := false })).detectorGone r
      else Ev.start (s.withRail r (s.rails[r].qualified .high)) := by
  have hm' : ((Ev.start s).railCfg r).monitor.readsPg = true := (s.railCfg r).monitor.readsPg_of_ne_window hm
  simp only [Ev.pgQualified, Ev.start_rails, hx, hm', if_true, Ev.setRail_start, State.withRail_get,
    State.withRail_withRail, RailRt.qualified]

end

end

end Sys2Proof.Machine

namespace Sys2Proof.Machine

/-! ### The window -/

section
variable (s : State) {r : Rail} {mv : Nat}

/-- A reading within the window: the count returns to 0 and the window detector, if it stood, is gone (R33, R37). -/
theorem Ev.judgeWindow_within (h1 : (s.railCfg r).lowMV ≤ mv) (h2 : mv ≤ (s.railCfg r).highMV) :
    (Ev.start s).judgeWindow r mv
      = if s.rails[r].winDetector = true then
          (Ev.start (s.withRail r { s.rails[r] with oow := 0, winDetector := false })).detectorGone r
        else Ev.start (s.withRail r { s.rails[r] with oow := 0, winDetector := false }) := by
  have hin : ((Ev.start s).railCfg r).inWindow mv = true := by
    show (s.railCfg r).inWindow mv = true
    simp [RailCfg.inWindow, h1, h2]
  simp only [Ev.judgeWindow, hin, if_true]
  rfl

section
variable (h : ¬ ((s.railCfg r).lowMV ≤ mv ∧ mv ≤ (s.railCfg r).highMV))
include h

/-- A reading outside the window, by the detector and the count (R33). -/
theorem Ev.judgeWindow_outside : (Ev.start s).judgeWindow r mv
    = if s.rails[r].winDetector = true then Ev.start s
      else if s.rails[r].oow + 1 < (s.railCfg r).windowSamples then
        Ev.start (s.withRail r { s.rails[r] with oow := s.rails[r].oow + 1 })
      else
        (Ev.start (s.withRail r { s.rails[r] with oow := (s.railCfg r).windowSamples, winDetector := true })).railFault r
          (if mv < (s.railCfg r).lowMV then .undervolt else .overvolt) mv := by
  have hout : ((Ev.start s).railCfg r).inWindow mv = false := by
    show (s.railCfg r).inWindow mv = false
    simpa [RailCfg.inWindow] using h
  simp only [Ev.judgeWindow, hout, Bool.false_eq_true, if_false]
  rfl

end

/-! ### The conversions of a rail by its state -/

/-- A reading does nothing more in OFF, SHED, RETRY_WAIT and FAULTED, below low_mV in RAMPING and above drain_mV in
DRAINING (R25, R27, R31). -/
theorem Ev.judgeConversion_aside (h : s.rails[r].state = .off ∨ s.rails[r].state = .shed ∨ s.rails[r].state = .retryWait
      ∨ s.rails[r].state = .faulted ∨ (s.rails[r].state = .ramping ∧ mv < (s.railCfg r).lowMV)
      ∨ (s.rails[r].state = .draining ∧ (s.railCfg r).drainMV < mv)) :
    (Ev.start s).judgeConversion r mv = Ev.start s := by
  obtain h | h | h | h | ⟨h, hmv⟩ | ⟨h, hmv⟩ := h
  any_goals simp only [Ev.judgeConversion, Ev.start_rails, h]
  · have hramp : (Ev.start s).rampConversion r mv = Ev.start s := if_neg (Nat.not_le.2 hmv)
    simp only [hramp, Ev.settle_start, Ev.start_rails, h, reduceCtorEq, if_false]
  · have hdrain : (Ev.start s).drainConversion r mv = Ev.start s := if_neg (Nat.not_le.2 hmv)
    rw [hdrain, Ev.settle_start]

/-- A reading of an ON rail is judged against the window (R33). -/
theorem Ev.judgeConversion_on (h : s.rails[r].state = .on) :
    (Ev.start s).judgeConversion r mv = ((Ev.start s).judgeWindow r mv).settle := by
  simp only [Ev.judgeConversion, Ev.start_rails, h]

section
variable (hx : s.rails[r].state = .ramping) (hmv : (s.railCfg r).lowMV ≤ mv)
include hx hmv

/-- A reading at or above low_mV meets the window half; with monitor BOTH and pg level LOW that is all (R27). -/
theorem Ev.judgeConversion_half (hm : (s.railCfg r).monitor = .both) (hl : s.rails[r].pgLevel = .low) :
    (Ev.start s).judgeConversion r mv = Ev.start (s.withRail r { s.rails[r] with winHalf := true }) := by
  let t : State := s.withRail r { s.rails[r] with winHalf := true }
  have ht : t.rails[r] = { s.rails[r] with winHalf := true } := State.withRail_get _ _ _
  have hunmet : monitorMet (t.railCfg r).monitor t.rails[r] = false := by
    have hm' : (t.railCfg r).monitor = .both := hm
    rw [hm', ht]
    simp [-Fin.getElem_fin, monitorMet, hl]
  have hramp : (Ev.start s).rampConversion r mv = Ev.start t := (if_pos hmv).trans (Ev.tryOn_unmet t hunmet)
  have hoff : ¬ t.rails[r].state = .on := by
    rw [ht]
    simp [-Fin.getElem_fin, hx]
  show (Ev.start s).judgeConversion r mv = Ev.start t
  simp only [Ev.judgeConversion, Ev.start_rails, hx, hramp, Ev.settle_start, if_neg hoff]

/-- The reading that meets the monitor condition brings the rail ON and is the first that the window judges (R27). -/
theorem Ev.judgeConversion_on_met
    (hm : (s.railCfg r).monitor = .window ∨ ((s.railCfg r).monitor = .both ∧ s.rails[r].pgLevel = .high)) {t u : State}
    (ht : ((Ev.start (s.withRail r { s.rails[r].goneOn with winHalf := true })).answerOn r (.completed .none)).settle
      = Ev.start t) (hon : t.rails[r].state = .on) (hu : (Ev.start t).judgeWindow r mv = Ev.start u) :
    (Ev.start s).judgeConversion r mv = Ev.start u := by
  let y : RailRt := { s.rails[r] with winHalf := true }
  have hmet : monitorMet ((s.withRail r y).railCfg r).monitor (s.withRail r y).rails[r] = true := by
    rw [State.withRail_get, show (s.withRail r y).railCfg r = s.railCfg r from rfl]
    obtain hm | ⟨hm, hl⟩ := hm
    · rw [hm]
      rfl
    · rw [hm]
      simp [-Fin.getElem_fin, monitorMet, y, hl]
  have htry := Ev.tryOn_met (s.withRail r y) (by rw [State.withRail_get]; exact hx) hmet
  rw [State.withRail_withRail, State.withRail_get] at htry
  have hramp : ((Ev.start s).rampConversion r mv).settle = Ev.start t :=
    (congrArg Ev.settle ((if_pos hmv).trans htry)).trans ht
  simp only [Ev.judgeConversion, Ev.start_rails, hx, hramp, if_pos hon, hu, Ev.settle_start]

/-- As the rail goes ON a waiting RAIL_ON step completes (R40, R51); the window's judgement `y` of the reading stands. -/
theorem Ev.judgeConversion_goesOn {y : RailRt}
    (hm : (s.railCfg r).monitor = .window ∨ ((s.railCfg r).monitor = .both ∧ s.rails[r].pgLevel = .high))
    (hwin : ∀ t : State, t.rails[r] = { s.rails[r].goneOn with winHalf := true } → t.railCfg r = s.railCfg r →
      (Ev.start t).judgeWindow r mv = Ev.start (t.withRail r y)) :
    (s.noStepOn r → (Ev.start s).judgeConversion r mv = Ev.start (s.withRail r y))
      ∧ ∀ run ms, s.waitsOn (.railOn r) run ms →
        (Ev.start s).judgeConversion r mv = Ev.start ((s.withRail r y).passed run ms .none) := by
  let t : State := s.withRail r { s.rails[r].goneOn with winHalf := true }
  have hon : t.rails[r] = { s.rails[r].goneOn with winHalf := true } := State.withRail_get _ _ _
  have hy : t.withRail r y = s.withRail r y := State.withRail_withRail _ _ _ _
  have ha := Ev.settle_answerOn t (r := r) (.completed .none) (note := .none)
  refine ⟨fun hw => ?_, fun run ms hw => ?_⟩
  · rw [← hy]
    exact Ev.judgeConversion_on_met s hx hmv hm (ha.1 hw) (by rw [hon]; rfl) (hwin t hon rfl)
  · have hpass := ha.2 run ms hw (State.goesOnWith_completed _ run (by decide))
    rw [← hy]
    exact Ev.judgeConversion_on_met s hx hmv hm hpass (congrArg RailRt.state hon) (hwin (t.passed run ms .none) hon rfl)

end

end

/-! ### The responses to a fault, to the end of the event -/

section
variable (s : State) {r : Rail} (cause : FaultCause) (value : Nat) {t : State}

/-- A fault answered by a retry (R36). -/
theorem Ev.settle_retries (h : (s.railCfg r).faultMode = .retry)
    (hm : ∀ m, (s.railCfg r).retryLimit.max = some m → s.rails[r].retryCount < m)
    (ht : (Ev.start s).drainStart r .retryWait = Ev.start t) :
    ((Ev.start s).railFault r cause value).settle = Ev.start (t.occurred (srcRail r)
      { cause := cause, value := value, latching := false, withCondition := false, action := .none }) := by
  rw [Ev.railFault_retries s cause value h hm, ht, Ev.occurrence_start, Ev.settle_start]

/-- A fault that latches, with the rail's fault_action (R35, R154, R155). -/
theorem Ev.settle_latches (h : (s.railCfg r).faultMode = .latch
      ∨ ∃ m, (s.railCfg r).faultMode = .retry ∧ (s.railCfg r).retryLimit.max = some m ∧ m ≤ s.rails[r].retryCount)
    (ht : (Ev.start s).drainStart r .faulted = Ev.start t) {ms : Nat}
    (hact : (s.railCfg r).faultAction = .drop ∨ t.snapReady ms) :
    ((Ev.start s).railFault r cause value).settle.finish = (t.occurred (srcRail r)
      { cause := cause, value := value, latching := true, withCondition := false
        action := (s.railCfg r).faultAction.toAction }).acted (srcRail r) (s.railCfg r).faultAction ms := by
  rw [Ev.railFault_latches s cause value h, ht]
  exact Ev.settle_occurrenceAct t r _ _ rfl hact

/-- With monitor PG and pg level LOW a drain towards RETRY_WAIT ends at its start (R30, R31). -/
theorem Ev.drainStart_toRetryWait (h : s.faults[srcRail r].condition = false) (hm : (s.railCfg r).monitor = .pg)
    (hl : s.rails[r].pgLevel = .low) : (Ev.start s).drainStart r .retryWait
      = Ev.start (s.withRail r { s.drainingTo r s.rails[r] .retryWait with
          state := .retryWait, timer := some (s.now + 1000 * (s.railCfg r).retryMs) }) := by
  rw [Ev.drainStart_absent s .retryWait h, if_pos ⟨hm, hl⟩,
    Ev.drainEnd_retryWait (s.withRail r _) false (by rw [State.withRail_get]; rfl), State.withRail_withRail,
    State.withRail_get]
  rfl

/-- The same towards FAULTED, with no step waiting. -/
theorem Ev.drainStart_toFaulted (h : s.faults[srcRail r].condition = false) (hm : (s.railCfg r).monitor = .pg)
    (hl : s.rails[r].pgLevel = .low) (hw : s.noStepOn r) : (Ev.start s).drainStart r .faulted
      = Ev.start (s.withRail r { s.drainingTo r s.rails[r] .faulted with state := .faulted, timer := none }) := by
  rw [Ev.drainStart_absent s .faulted h, if_pos ⟨hm, hl⟩,
    Ev.drainEnd_faulted (s.withRail r _) false (by rw [State.withRail_get]; rfl), State.withRail_withRail,
    State.withRail_get]
  exact Ev.answers_unheard (s.withRail r _) _ _ hw

/-- With another monitor the drain goes on (R30). -/
theorem Ev.drainStart_goesOn (d : Dest) (h : s.faults[srcRail r].condition = false) (hm : (s.railCfg r).monitor ≠ .pg) :
    (Ev.start s).drainStart r d = Ev.start (s.withRail r (s.drainingTo r s.rails[r] d)) := by
  rw [Ev.drainStart_absent s d h, if_neg fun hgo => hm hgo.1]

end

end Sys2Proof.Machine

namespace Sys2Proof.Machine

/-- Settles O50. Both inputs end in a move of the rail's record, an answer or a fault; `hexp` takes an event's end to the
instruction's outcome, and `hleaves` one that moves the record alone. -/
theorem powerGoodIsQualified : Obligations.PowerGoodIsQualified := by
  intro s r c x f retries latches acts
  have hquiet {ms : Nat} (h : acts ms) : s.noStepOn r := h.elim (fun h => h.2) fun h => h.noStepOn r
  have hready {ms : Nat} (h : acts ms) : c.faultAction = .drop ∨ s.snapReady ms := h.imp (fun h => h.1) id
  refine ⟨?_, exec_pgPinChange s, fun h => ?_, fun hpg => ?_, fun code i hconv hptr hi hin => ?_⟩
  · simp only [exec, execPgPinChange, runEvent, Ev.start_pins, if_true, Ev.finish_start]
  · have h' : ¬ (Ev.start s).rails[r].pgTimer.isSome = true := by
      rw [Ev.start_rails, show s.rails[r].pgTimer = none from h]
      exact Bool.false_ne_true
    simp only [exec, execPgDeglitchExpiry, runEvent, if_neg h', Ev.finish_start]
  · -- The qualifier's expiry: what the new pg level does in each rail state.
    intro x1 leaves lost
    have hexp {e : Ev} {t : State} (h : (Ev.start s).pgQualified r (Level.ofBool s.pins.pg[r]) = e)
        (ht : e.settle.finish = t) : exec (.pgDeglitchExpiry r) s = .next t := by
      rw [exec_pgDeglitchExpiry s hpg, h, ht]
    have hleaves {y : RailRt} (h : (Ev.start s).pgQualified r (Level.ofBool s.pins.pg[r]) = Ev.start (s.withRail r y)) :
        leaves y := hexp h (congrArg Ev.finish (Ev.settle_start (s.withRail r y)))
    refine ⟨fun h => ?_, fun hx hm hp => ?_, fun hx hd hc hm hp => ?_, fun hx hm hp => ?_,
      fun hx hm hp hd => ?_, fun hx hm hp hd => ?_⟩
    · obtain h | h | h | h | ⟨h, hm⟩ | ⟨h, hm⟩ | ⟨h, hm⟩ := h
      · exact hleaves (Ev.pgQualified_aside s _ (.inl h))
      · exact hleaves (Ev.pgQualified_aside s _ (.inr (.inl h)))
      · exact hleaves (Ev.pgQualified_aside s _ (.inr (.inr (.inl h))))
      · exact hleaves (Ev.pgQualified_aside s _ (.inr (.inr (.inr h))))
      · refine hleaves ((Ev.pgQualified_ramping s _ h).trans (Ev.tryOn_unmet (s.withRail r x1) ?_))
        rw [State.withRail_get, show (s.withRail r x1).railCfg r = c from rfl]
        obtain ⟨hm, hw⟩ | ⟨hm, hp⟩ := hm
        · rw [hm]
          exact (congrArg _ hw).trans (Bool.and_false _)
        · cases hc : c.monitor with
          | window => exact absurd hc hm
          | pg | both => simp [monitorMet, x1, hp, Level.ofBool]
      · exact hleaves (Ev.pgQualified_unread s _ h hm)
      · refine hleaves (Ev.pgQualified_draining s _ h ?_)
        rintro ⟨h1, h2⟩
        obtain hm | hp := hm
        · exact hm h1
        · simp [hp, Level.ofBool] at h2
    · have hmet : monitorMet ((s.withRail r x1).railCfg r).monitor (s.withRail r x1).rails[r] = true := by
        rw [State.withRail_get, show (s.withRail r x1).railCfg r = c from rfl]
        obtain hm | ⟨hm, hw⟩ := hm <;> rw [hm] <;> simp [-Fin.getElem_fin, monitorMet, x1, hp, Level.ofBool]
        exact hw
      intro on
      have htry := Ev.tryOn_met (s.withRail r x1) (by rw [State.withRail_get]; exact hx) hmet
      rw [State.withRail_withRail, State.withRail_get] at htry
      have hq := (Ev.pgQualified_ramping s _ hx).trans htry
      have ha := Ev.settle_answerOn (s.withRail r on) (r := r) (.completed .none) (note := .none)
      exact ⟨fun hw => hexp hq (congrArg Ev.finish (ha.1 hw)), fun run ms hw =>
        hexp hq (congrArg Ev.finish (ha.2 run ms hw (State.goesOnWith_completed _ run (by decide))))⟩
    · have hl : Level.ofBool s.pins.pg[r] = .low := congrArg Level.ofBool hp
      intro off
      have hend := fun hw => Ev.drainEnd_off (s.withRail r x1) (r := r) false (by rw [State.withRail_get]; exact hd)
        (by rw [State.withRail_get]; exact hc) hw
      rw [State.withRail_withRail, State.withRail_get] at hend
      have hq := fun hw => (Ev.pgQualified_drained s _ hx hm hl).trans (hend hw)
      have ha := Ev.settle_answerOff (s.withRail r off) (r := r) (.completed .none) (note := .none)
      exact ⟨fun hw => hexp (hq hw.1) (congrArg Ev.finish (ha.1 hw)), fun run ms hw =>
        hexp (hq (by rw [show (s.withRail r x1).waitOf = s.waitOf from rfl, hw.waitOf]; nofun))
          (congrArg Ev.finish (ha.2 run ms hw (State.goesOnWith_completed _ run (by decide))))⟩
    · have hq := Ev.pgQualified_high s hx hm
      rw [show Level.high = Level.ofBool s.pins.pg[r] from (congrArg Level.ofBool hp).symm] at hq
      refine ⟨fun hd hw hf hfc => ?_, fun hd hw => ?_, fun hd => ?_⟩
      · rw [if_pos hd] at hq
        have hgone := Ev.detectorGone_last (s.withRail r { x1 with pgDetector := false }) (r := r)
          (by rw [State.withRail_get]; exact hw) (by rw [State.withRail_get]) hf hfc
        exact hexp (hq.trans hgone) (congrArg Ev.finish (Ev.settle_start _))
      · rw [if_pos hd] at hq
        exact hleaves (hq.trans (Ev.detectorGone_other (s.withRail r { x1 with pgDetector := false })
          (.inl (by rw [State.withRail_get]; exact hw))))
      · rw [if_neg (by rw [show s.rails[r].pgDetector = false from hd]; exact Bool.false_ne_true)] at hq
        exact hleaves hq
    · have hq := Ev.pgQualified_low s hx hm
      rw [show Level.low = Level.ofBool s.pins.pg[r] from (congrArg Level.ofBool hp).symm, if_pos hd] at hq
      exact hleaves hq
    · have hl : Level.ofBool s.pins.pg[r] = .low := congrArg Level.ofBool hp
      have hq := Ev.pgQualified_low s hx hm
      rw [← hl, if_neg (by rw [show s.rails[r].pgDetector = false from hd]; exact Bool.false_ne_true)] at hq
      let s1 : State := s.withRail r { x1 with pgDetector := true }
      have hs1 : s1.rails[r] = { x1 with pgDetector := true } := State.withRail_get _ _ _
      refine ⟨fun hmode => ?_, fun hmode => ?_, fun hmode hmon hf => ?_, fun ms hmode hmon hf hact => ?_⟩
      · exact hexp (hq.trans (Ev.railFault_report s1 .pgLost x.lastMV hmode)) (congrArg Ev.finish (Ev.settle_start _))
      · exact hleaves (hq.trans (Ev.railFault_ignore s1 .pgLost x.lastMV hmode))
      · have hdrain := Ev.drainStart_toRetryWait s1 hf hmon (by rw [hs1]; exact hl)
        rw [hs1, State.withRail_withRail] at hdrain
        exact hexp hq (congrArg Ev.finish (Ev.settle_retries s1 .pgLost x.lastMV hmode.1
          (by rw [hs1]; exact hmode.2) hdrain))
      · have hdrain := Ev.drainStart_toFaulted s1 hf hmon (by rw [hs1]; exact hl) (hquiet hact)
        rw [hs1, State.withRail_withRail] at hdrain
        exact hexp hq (Ev.settle_latches s1 .pgLost x.lastMV (by rw [hs1]; exact hmode) hdrain (hready hact))
  · -- The third conversion of the rail's input: what the reading does in each rail state.
    intro mv s1 x1 leaves within faulty
    let s2 : State := s1.withRail r x1
    have hs2 : s2.rails[r] = x1 := State.withRail_get _ _ _
    have hexp {t : State} (hu : c.used = true) (hm : c.monitor ≠ .pg)
        (h : ((Ev.start s2).judgeConversion r mv).finish = t) : exec (.slowConversion code) s = .next t :=
      (exec_slowConversion_judged s code i hconv hptr hi hin hu hm).trans (congrArg Host.Outcome.next h)
    have hleaves {y : RailRt} (hu : c.used = true) (hm : c.monitor ≠ .pg)
        (h : (Ev.start s2).judgeConversion r mv = Ev.start (s1.withRail r y)) : leaves y :=
      hexp hu hm (congrArg Ev.finish h)
    refine ⟨fun h => ?_, fun hu hm => ⟨fun hx hmv => ⟨fun hb hl => ?_, fun hmet => ?_⟩, fun hx => ?_⟩⟩
    · by_cases hread : c.used = true ∧ c.monitor ≠ .pg
      · obtain ⟨hu, hm⟩ := hread
        have haside := (h.resolve_left (by rw [hu]; exact Bool.noConfusion)).resolve_left hm
        exact hleaves hu hm (Ev.judgeConversion_aside s2 (by rw [hs2]; exact haside))
      · refine exec_slowConversion_unread s code i hconv hptr hi hin ?_
        rwa [not_and_or, Bool.not_eq_true, not_not] at hread
    · refine hleaves hu hm ((Ev.judgeConversion_half s2 (by rw [hs2]; exact hx) hmv hb (by rw [hs2]; exact hl)).trans ?_)
      rw [hs2, State.withRail_withRail]
    · intro on goesOn
      have hmet' : c.monitor = .window ∨ c.monitor = .both ∧ x.pgLevel = .high := by
        cases hc : c.monitor with
        | pg => exact absurd hc hm
        | window => exact .inl rfl
        | both => exact .inr ⟨rfl, hmet.resolve_left (by rw [hc]; nofun)⟩
      have hgoes {y : RailRt} (hwin : ∀ t : State, t.rails[r] = on → t.railCfg r = c →
          (Ev.start t).judgeWindow r mv = Ev.start (t.withRail r y)) : goesOn y := by
        have hj := Ev.judgeConversion_goesOn s2 (r := r) (by rw [hs2]; exact hx) hmv (y := y) (by rw [hs2]; exact hmet')
          (by rw [hs2]; exact hwin)
        rw [State.withRail_withRail] at hj
        exact ⟨fun hw => hleaves hu hm (hj.1 hw), fun run ms hw => hexp hu hm (congrArg Ev.finish (hj.2 run ms hw))⟩
      refine ⟨fun hhi => hgoes fun t ht htc => ?_, fun hhi ho => hgoes fun t ht htc => ?_⟩
      · rw [Ev.judgeWindow_within t (by rw [htc]; exact hmv) (by rw [htc]; exact hhi), ht]
        rfl
      · rw [Ev.judgeWindow_outside t (by rw [htc]; exact fun h => Nat.not_le.2 hhi h.2), ht, htc,
          if_neg Bool.false_ne_true, if_pos ho]
    · have hjudge {t : State} (h : ((Ev.start s2).judgeWindow r mv).settle.finish = t) :
          exec (.slowConversion code) s = .next t :=
        hexp hu hm ((congrArg Ev.finish (Ev.judgeConversion_on s2 (by rw [hs2]; exact hx))).trans h)
      have hstays {y : RailRt} (h : (Ev.start s2).judgeWindow r mv = Ev.start (s1.withRail r y)) : leaves y :=
        hjudge (congrArg Ev.finish ((congrArg Ev.settle h).trans (Ev.settle_start _)))
      have hin (hw : within) := Ev.judgeWindow_within s2 (r := r) hw.1 hw.2
      have hout (hw : ¬ within) := Ev.judgeWindow_outside s2 (r := r) hw
      rw [hs2, State.withRail_withRail] at hin
      rw [hs2, State.withRail_withRail, State.withRail_withRail] at hout
      have hno {b : Bool} (h : b = false) : ¬ b = true := by rw [h]; exact Bool.false_ne_true
      refine ⟨fun hw hd => ?_, fun hw hd hp => ?_, fun hw hd hp hf hfc => ?_, fun hw hd => ?_, fun hw hd ho => ?_,
        fun hw hd ho => ?_⟩
      · refine hstays (((hin hw).trans (if_neg (hno hd))).trans ?_)
        rw [show x1.winDetector = false from hd]
      · exact hstays (((hin hw).trans (if_pos hd)).trans (Ev.detectorGone_other (s1.withRail r _)
          (.inr (by rw [State.withRail_get]; exact hp))))
      · have hgone := Ev.detectorGone_last (s1.withRail r { x1 with oow := 0, winDetector := false }) (r := r)
          (by rw [State.withRail_get]) (by rw [State.withRail_get]; exact hp) hf hfc
        have hwin := ((hin hw).trans (if_pos hd)).trans hgone
        rw [hjudge (congrArg (fun e : Ev => e.settle.finish) hwin), Ev.settle_start]
        rfl
      · exact hstays ((hout hw).trans (if_pos hd))
      · exact hstays (((hout hw).trans (if_neg (hno hd))).trans (if_pos ho))
      · intro x2
        let s3 : State := s1.withRail r x2
        have hs3 : s3.rails[r] = x2 := State.withRail_get _ _ _
        let cause : FaultCause := if mv < c.lowMV then .undervolt else .overvolt
        have hq : (Ev.start s2).judgeWindow r mv = (Ev.start s3).railFault r cause mv :=
          ((hout hw).trans (if_neg (hno hd))).trans (if_neg (Nat.not_lt.2 ho))
        have hfault {t : State} (h : ((Ev.start s3).railFault r cause mv).settle.finish = t) :
            exec (.slowConversion code) s = .next t :=
          hjudge ((congrArg (fun e : Ev => e.settle.finish) hq).trans h)
        have hdrain (d : Dest) (hf : f.condition = false) :
            (Ev.start s3).drainStart r d = Ev.start (s1.withRail r (s3.drainingTo r x2 d)) := by
          rw [Ev.drainStart_goesOn s3 d hf hm, hs3]
          exact congrArg Ev.start (State.withRail_withRail s1 r x2 _)
        refine ⟨fun hmode => ?_, fun hmode => ?_, fun hmode hf => ?_, fun ms hmode hf hact => ?_⟩
        · exact hfault ((congrArg (fun e : Ev => e.settle.finish) (Ev.railFault_report s3 cause mv hmode)).trans
            (congrArg Ev.finish (Ev.settle_start _)))
        · exact hstays (hq.trans (Ev.railFault_ignore s3 cause mv hmode))
        · exact hfault (congrArg Ev.finish (Ev.settle_retries s3 cause mv hmode.1 (by rw [hs3]; exact hmode.2)
            (hdrain .retryWait hf)))
        · exact hfault (Ev.settle_latches s3 cause mv (by rw [hs3]; exact hmode) (hdrain .faulted hf) (hready hact))
end Sys2Proof.Machine

namespace Sys2Proof.Machine

/-! ### The tiers under a rail's operations

No rail, line or state operation writes a tier: only the holds do (R133). -/

section
variable (e : Ev)

@[simp] theorem Ev.occurrence_tiers (src : Fin 15) (o : Occurrence) : (e.occurrence src o).tiers = e.tiers := rfl

@[simp] theorem Ev.conditionEnded_tiers (src : Fin 15) : (e.conditionEnded src).tiers = e.tiers := by
  simp only [Ev.conditionEnded]
  repeat' split
  all_goals rfl

@[simp] theorem Ev.answerOn_tiers (r : Rail) (a : Answer) : (e.answerOn r a).tiers = e.tiers := by
  unfold Ev.answerOn
  split <;> rfl

@[simp] theorem Ev.answerOff_tiers (r : Rail) (a : Answer) : (e.answerOff r a).tiers = e.tiers := by
  unfold Ev.answerOff
  split <;> rfl

@[simp] theorem Ev.tryOn_tiers (r : Rail) : (e.tryOn r).tiers = e.tiers := by
  unfold Ev.tryOn Ev.railGoOn
  split <;> simp

@[simp] theorem Ev.beginAttempt_tiers (r : Rail) (k : Nat) : (e.beginAttempt r k).tiers = e.tiers := by
  unfold Ev.beginAttempt Ev.railGoShed
  split <;> simp

@[simp] theorem Ev.rampStart_tiers (r : Rail) : (e.rampStart r).tiers = e.tiers := e.beginAttempt_tiers r 1

@[simp] theorem Ev.homeTest_tiers (r : Rail) : (e.homeTest r).tiers = e.tiers := by
  unfold Ev.homeTest
  split <;> simp

@[simp] theorem Ev.drainEnd_tiers (r : Rail) (late : Bool) : (e.drainEnd r late).tiers = e.tiers := by
  simp only [Ev.drainEnd, Ev.railGoShed]
  repeat' split
  all_goals simp

@[simp] theorem Ev.dropDetectors_tiers (r : Rail) : (e.dropDetectors r).tiers = e.tiers := by
  unfold Ev.dropDetectors
  split <;> simp

@[simp] theorem Ev.drainStart_tiers (r : Rail) (d : Dest) : (e.drainStart r d).tiers = e.tiers := by
  simp only [Ev.drainStart]
  split <;> simp

@[simp] theorem Ev.offRequest_tiers (r : Rail) : (e.offRequest r).tiers = e.tiers := by
  simp only [Ev.offRequest]
  repeat' split
  all_goals simp

@[simp] theorem Ev.enableRequest_tiers (r : Rail) : (e.enableRequest r).tiers = e.tiers := by
  unfold Ev.enableRequest
  repeat' split
  all_goals simp

@[simp] theorem Ev.shedRequest_tiers (r : Rail) : (e.shedRequest r).tiers = e.tiers := by
  unfold Ev.shedRequest
  repeat' split
  all_goals simp

@[simp] theorem Ev.unshedRequest_tiers (r : Rail) : (e.unshedRequest r).tiers = e.tiers := by
  unfold Ev.unshedRequest
  split <;> simp

/-! ### The tiers under the moves of the lines, of the state and of ride-through -/

@[simp] theorem Ev.armSupervision_tiers : e.armSupervision.tiers = e.tiers := by
  unfold Ev.armSupervision Ev.enterWatching Ev.enterGrace
  repeat' split
  all_goals simp

@[simp] theorem Ev.endSupervision_tiers : e.endSupervision.tiers = e.tiers := by
  unfold Ev.endSupervision
  split <;> simp

@[simp] theorem Ev.writeTarget_tiers (t : Target) : (e.writeTarget t).tiers = e.tiers := by
  unfold Ev.writeTarget
  split <;> rfl

@[simp] theorem Ev.fireReturn_tiers : e.fireReturn.tiers = e.tiers := by
  unfold Ev.fireReturn
  repeat' split
  all_goals simp

@[simp] theorem Ev.gated_tiers (f : Ev → Ev) : (e.gated f).tiers = (f e).tiers := by
  unfold Ev.gated
  split <;> simp

@[simp] theorem Ev.keyHoldLook_tiers : e.keyHoldLook.tiers = e.tiers := by
  simp only [Ev.keyHoldLook]
  repeat' split
  all_goals rfl

@[simp] theorem Ev.setSys_tiers (x : SysState) : (e.setSys x).tiers = e.tiers := by
  unfold Ev.setSys
  split <;> simp

@[simp] theorem Ev.enterLockout_tiers : e.enterLockout.tiers = e.tiers := by
  simp [Ev.enterLockout]

@[simp] theorem Ev.completeBySnap_tiers (n : Nat) : (e.completeBySnap n).tiers = e.tiers := by
  unfold Ev.completeBySnap
  split <;> rfl

@[simp] theorem Ev.writeByDown_tiers (n : Nat) : (e.writeByDown n).tiers = e.tiers := by
  unfold Ev.writeByDown
  split <;> rfl

@[simp] theorem Ev.slotTakes_tiers (q : PlanId) (o : HsOutcome) : (e.slotTakes q o).tiers = e.tiers := by
  cases q <;> rfl

@[simp] theorem Ev.judgeDip_tiers : e.judgeDip.tiers = e.tiers := by
  simp only [Ev.judgeDip, Ev.enterQualify]
  repeat' split
  all_goals rfl

@[simp] theorem Ev.leaveRest_tiers : e.leaveRest.tiers = e.tiers := by
  simp only [Ev.leaveRest, Ev.enterNormal, Ev.judgeDip_tiers, Ev.gated_tiers, Ev.powerNotice_tiers, Ev.armReturn]
  split <;> rfl

@[simp] theorem Ev.snapRequest_tiers (q : PlanId) (c : Cause) : (e.snapRequest q c).tiers = e.tiers := by
  unfold Ev.snapRequest
  repeat' split
  all_goals simp

@[simp] theorem Ev.snapBoth_tiers (c : Cause) : (e.snapBoth c).tiers = e.tiers := by
  simp [Ev.snapBoth]

@[simp] theorem Ev.stateOnEnd_tiers (q : PlanId) (o : PlanOutcome) : (e.stateOnEnd q o).tiers = e.tiers := by
  simp only [Ev.stateOnEnd, Ev.stateOnDone, Ev.stateOnFailed, Ev.upFailed]
  repeat' split
  all_goals simp

/-! ### The tiers as a step begins, and in the arbiter's choice -/

@[simp] theorem Ev.beginStep_tiers : e.beginStep.tiers = e.tiers := by
  simp only [Ev.beginStep, Ev.beginHandshake]
  repeat' split
  all_goals simp

@[simp] theorem Ev.setException_tiers (q : PlanId) (n : Nat) (c : Cause) : (e.setException q n c).tiers = e.tiers := rfl

@[simp] theorem Ev.goTo_tiers (run : Run) (n : Nat) : (e.goTo run n).tiers = e.tiers := Ev.beginStep_tiers _

@[simp] theorem Ev.enterTail_tiers (run : Run) (o : PlanOutcome) (c : Cause) :
    (e.enterTail run o c).tiers = e.tiers := Ev.beginStep_tiers _

@[simp] theorem Ev.withdrawService_tiers (q : PlanId) : (e.withdrawService q).tiers = e.tiers := by
  simp only [Ev.withdrawService]
  split <;> rfl

@[simp] theorem Ev.choose_tiers : e.choose.1.tiers = e.tiers := by
  simp only [Ev.choose]
  repeat' split
  all_goals simp

@[simp] theorem Ev.abandon_tiers : e.abandon.tiers = e.tiers := by
  unfold Ev.abandon
  split <;> rfl

@[simp] theorem Ev.openByFault_tiers (i : Fin 15) : (e.openByFault i).tiers = e.tiers := by
  unfold Ev.openByFault
  split <;> rfl

end
end Sys2Proof.Machine

namespace Sys2Proof.Machine

/-! ### A tier without a RIDE hold through the engine

Within the engine only the entry to REST writes a tier, and it takes a RIDE hold away (R124). -/

/-- A tier that holds no RIDE stands. -/
def Ev.KeepsTier (k : Fin 4) (e e' : Ev) : Prop := e.tiers[k].holds.ride = false → e'.tiers[k] = e.tiers[k]

section
variable {k : Fin 4} {e e₁ e₂ : Ev}

theorem Ev.KeepsTier.of_eq (h : e₁.tiers = e.tiers) : e.KeepsTier k e₁ := fun _ => by rw [h]

theorem Ev.KeepsTier.trans (h₁ : e.KeepsTier k e₁) (h₂ : e₁.KeepsTier k e₂) : e.KeepsTier k e₂ := fun h =>
  have h' := h₁ h
  (h₂ (by rw [h']; exact h)).trans h'

/-- A first move that writes no tier may be left out. -/
theorem Ev.KeepsTier.behind (h₂ : e₁.KeepsTier k e₂) (h : e₁.tiers = e.tiers) : e.KeepsTier k e₂ :=
  (Ev.KeepsTier.of_eq h).trans h₂

theorem Ev.KeepsTier.ite {c : Prop} [Decidable c] (h₁ : e.KeepsTier k e₁) (h₂ : e.KeepsTier k e₂) :
    e.KeepsTier k (if c then e₁ else e₂) := by
  split
  · exact h₁
  · exact h₂

theorem Ev.KeepsTier.foldl {α : Type} {f : Ev → α → Ev} (h : ∀ (e : Ev) (a : α), e.KeepsTier k (f e a))
    (l : List α) : ∀ e : Ev, e.KeepsTier k (l.foldl f e) := by
  induction l with
  | nil => exact fun _ => .of_eq rfl
  | cons a l ih => exact fun e => (h e a).trans (ih _)

end

section
variable {k : Fin 4} (e : Ev)

/-- The requests to a tier's members write no tier. -/
theorem Ev.foldl_tiers {α : Type} {f : Ev → α → Ev} (h : ∀ e a, (f e a).tiers = e.tiers) (l : List α) :
    (l.foldl f e).tiers = e.tiers := by
  induction l generalizing e with
  | nil => rfl
  | cons a l ih => exact (ih _).trans (h e a)

/-- A RIDE hold taken from a tier leaves a tier that has none (R133). -/
theorem Ev.removeHold_keepsTier (t : Fin 4) : e.KeepsTier k (e.removeHold .ride t) := by
  by_cases ht : t = k
  · subst ht
    intro hk
    have hnone : e.removeHold .ride t = e := if_neg (show ¬ e.tiers[t].holds.ride = true by rw [hk]; exact nofun)
    rw [hnone]
  · have hval : t.val ≠ k.val := fun h => ht (Fin.ext h)
    have hset : e.KeepsTier k (e.setTier t fun x => { x with holds := x.holds.put .ride false }) := fun _ => by
      simp [hval]
    unfold Ev.removeHold
    exact .ite (.ite hset (hset.trans (.of_eq (Ev.foldl_tiers _ Ev.unshedRequest_tiers _)))) (.of_eq rfl)

theorem Ev.enterRest_keepsTier : e.KeepsTier k e.enterRest := by
  have hrest (x : Ev) : x.KeepsTier k
      (let e2 : Ev := { x with ride.state := .rest, ride.restTimer := x.after x.cfg.ride.restMs }.powerNotice
       if x.cfg.ride.restMs = 0 then e2.leaveRest else e2) := .ite (.of_eq (Ev.leaveRest_tiers _)) (.of_eq rfl)
  exact (Ev.KeepsTier.foldl (fun e t => e.removeHold_keepsTier t) allTiers e).trans (hrest _)

theorem Ev.rideOnPlanEnd_keepsTier (q : PlanId) (o : PlanOutcome) (n : Nat) :
    e.KeepsTier k (e.rideOnPlanEnd q o n) := by
  cases q with
  | boardSnap =>
    have h : e.KeepsTier k (e.completeBySnap n) := .of_eq (e.completeBySnap_tiers n)
    exact .ite (h.trans (Ev.enterRest_keepsTier _)) h
  | boardDown => exact .ite (.of_eq (e.writeByDown_tiers n)) (.of_eq rfl)
  | boardUp | panelUp | panelDown | panelSnap | panelCare | user => exact .of_eq rfl

theorem Ev.endPlan_keepsTier (run : Run) (o : PlanOutcome) (n : Nat) (c : Cause) :
    e.KeepsTier k (e.endPlan run o n c) := by
  refine .trans (.of_eq ?_) ((Ev.rideOnPlanEnd_keepsTier _ run.plan o run.stepsDone).trans (.of_eq rfl))
  rw [Ev.stateOnEnd_tiers]
  rfl

/-! ### Steps -/

theorem Ev.goOn_keepsTier (run : Run) : e.KeepsTier k (e.goOn run) :=
  .ite (.ite (e.endPlan_keepsTier _ _ _ _) (.of_eq (e.goTo_tiers _ _)))
    (.ite (e.endPlan_keepsTier _ _ _ _) (.of_eq (e.goTo_tiers _ _)))

/-- A passed-over miss is noted and the engine goes on. -/
theorem Ev.passOver_keepsTier (run : Run) (n : Nat) (c : Cause) :
    e.KeepsTier k ((e.setException run.plan n c).goOn run) :=
  (Ev.goOn_keepsTier _ run).behind rfl

theorem Ev.failMiss_keepsTier (run : Run) (c : Cause) : e.KeepsTier k (e.failMiss run c) :=
  .ite (e.passOver_keepsTier _ _ _) (.ite (e.endPlan_keepsTier _ _ _ _) (.of_eq (e.enterTail_tiers _ _ _)))

theorem Ev.actOnAnswer_keepsTier (run : Run) (a : Answer) : e.KeepsTier k (e.actOnAnswer run a) := by
  cases a with
  | completed note =>
    exact .ite (e.goOn_keepsTier _) (.ite (e.failMiss_keepsTier _ _) (e.passOver_keepsTier _ _ _))
  | missed cause => exact .ite (e.failMiss_keepsTier _ _) (e.passOver_keepsTier _ _ _)

theorem Ev.serveAnswer_keepsTier : e.KeepsTier k e.serveAnswer := by
  unfold Ev.serveAnswer
  split
  · exact (Ev.actOnAnswer_keepsTier _ _ _).behind rfl
  · exact .of_eq rfl
  · exact .of_eq rfl

theorem Ev.runSteps_keepsTier (n : Nat) : e.KeepsTier k (e.runSteps n) := by
  induction n generalizing e with
  | zero => exact .of_eq rfl
  | succ n ih =>
    unfold Ev.runSteps
    exact .ite (e.serveAnswer_keepsTier.trans (ih _)) (.of_eq rfl)

/-! ### Plan starts, the arbiter, cuts and aborts -/

theorem Ev.startPlan_keepsTier (q : PlanId) : e.KeepsTier k (e.startPlan q) := by
  have hbegin (x : Ev) (run : Run) : x.KeepsTier k (if (x.cfg.plan q).bodyLast = 0 then x.endPlan run .done 0 .none
      else x.beginStep) := .ite (x.endPlan_keepsTier _ _ _ _) (.of_eq x.beginStep_tiers)
  refine (hbegin _ _).behind ?_
  rw [Ev.judgeDip_tiers]
  split
  all_goals exact Ev.endSupervision_tiers _

theorem Ev.runArbiter_keepsTier (n : Nat) : e.KeepsTier k (e.runArbiter n) := by
  induction n generalizing e with
  | zero => exact .of_eq rfl
  | succ n ih =>
    have h : e.KeepsTier k e.choose.1 := .of_eq e.choose_tiers
    unfold Ev.runArbiter
    refine .ite ?_ (.of_eq rfl)
    split
    · rename_i he
      rw [he] at h
      exact ((h.trans (Ev.startPlan_keepsTier _ _)).trans (Ev.runSteps_keepsTier _ _)).trans (ih _)
    · rename_i he
      rwa [he] at h

theorem Ev.arbitrate_keepsTier : e.KeepsTier k e.arbitrate := by
  have h : e.KeepsTier k { e.runArbiter planFuel with arb := false, tgtChanged := false } :=
    (e.runArbiter_keepsTier planFuel).trans (.of_eq rfl)
  exact .ite (h.trans (.of_eq (Ev.armSupervision_tiers _))) h

theorem Ev.cut_keepsTier : e.KeepsTier k e.cut := by
  unfold Ev.cut
  split
  · exact .ite (.of_eq rfl) (.trans (.of_eq e.abandon_tiers) (Ev.endPlan_keepsTier _ _ _ _ _))
  · exact .of_eq rfl

theorem Ev.takeSnaps_keepsTier : e.KeepsTier k e.takeSnaps := by
  unfold Ev.takeSnaps
  split
  · exact .ite (.of_eq rfl) (e.cut_keepsTier.trans (Ev.arbitrate_keepsTier _))
  · exact e.arbitrate_keepsTier

theorem Ev.abortService_keepsTier : e.KeepsTier k e.abortService := by
  unfold Ev.abortService
  split
  · refine .ite (.ite ?_ ?_) (.of_eq rfl)
    · exact .trans (.of_eq e.abandon_tiers) (Ev.endPlan_keepsTier _ _ _ _ _)
    · exact .trans (.of_eq ((Ev.enterTail_tiers _ _ _ _).trans e.abandon_tiers)) (Ev.runSteps_keepsTier _ _)
  · exact .of_eq rfl

theorem Ev.reportTarget_keepsTier : e.KeepsTier k e.reportTarget :=
  .ite ((Ev.abortService_keepsTier _).behind rfl) (.of_eq rfl)

theorem Ev.serve_keepsTier : e.KeepsTier k e.serve :=
  have htarget (x : Ev) : x.KeepsTier k (if x.tgtChanged then { x.reportTarget with arb := true } else x) :=
    .ite (x.reportTarget_keepsTier.trans (.of_eq rfl)) (.of_eq rfl)
  have harb (x : Ev) : x.KeepsTier k (if x.arb then x.arbitrate else x) := .ite x.arbitrate_keepsTier (.of_eq rfl)
  ((e.runSteps_keepsTier stepFuel).trans (htarget _)).trans (harb _)

/-! ### Fault actions -/

theorem Ev.actPanel_keepsTier : e.KeepsTier k e.actPanel :=
  .trans (.ite (.trans (.of_eq (e.writeTarget_tiers _)) (Ev.reportTarget_keepsTier _)) (.of_eq rfl))
    (.trans (.of_eq (Ev.snapRequest_tiers _ _ _)) (Ev.takeSnaps_keepsTier _))

theorem Ev.actSystem_keepsTier (i : Fin 15) : e.KeepsTier k (e.actSystem i) := by
  have h : e.KeepsTier k (e.writeTarget .standby).reportTarget :=
    .trans (.of_eq (e.writeTarget_tiers _)) (Ev.reportTarget_keepsTier _)
  exact .trans (.ite (h.trans (.of_eq (Ev.openByFault_tiers _ _))) h)
    (.trans (.of_eq (Ev.snapBoth_tiers _ _)) (Ev.takeSnaps_keepsTier _))

theorem Ev.applyAct_keepsTier : e.KeepsTier k e.applyAct := by
  unfold Ev.applyAct
  split
  · exact .of_eq rfl
  · refine .trans (.of_eq (e₁ := { e with act := none }) rfl) ?_
    dsimp only
    split
    · exact .of_eq rfl
    · exact .of_eq rfl
    · exact Ev.actPanel_keepsTier _
    · exact Ev.actSystem_keepsTier _ _
    · exact Ev.actSystem_keepsTier _ _

/-- Whatever an operation has marked, its serving leaves a tier that holds no RIDE as it stands. -/
theorem Ev.settle_keepsTier : e.KeepsTier k e.settle := e.serve_keepsTier.trans (Ev.applyAct_keepsTier _)

end
end Sys2Proof.Machine

namespace Sys2Proof.Machine

/-! ### A HOST hold by SET_HOLD -/

/-- SET_HOLD's bytes name the tier and ON or OFF (R137). -/
theorem holdArgs_tierByte (k : Fin 4) (on : Bool) : holdArgs [tierByte k, if on then 0 else 1] = some (k, on) := by
  revert k on
  decide

/-- SET_HOLD outside STARTING: the hold is placed or removed, and what it marks is served; the reply touches neither
tiers nor rails (R133, R137). -/
theorem exec_setHold (s : State) (tag : Byte) (k : Fin 4) (on : Bool) (hr : s.ready) (h1 : s.sys ≠ .starting) {e : Ev}
    (he : (if on then (Ev.start s).placeHold .host k else (Ev.start s).removeHold .host k).settle = e) :
    ∃ t, exec (.setHold tag [tierByte k, if on then 0 else 1]) s = .next t
      ∧ t.tiers = e.tiers ∧ t.rails = e.rails ∧ t.faults = e.faults ∧ t.run = e.run := by
  have hserved : (Ev.start s).served ⟨0x0C, tag, [tierByte k, if on then 0 else 1]⟩
      = { ev := e, status := .ok, body := [e.tiers[k].holds.byte] ++ flag (e.tierShed k) } := by
    rw [Ev.served_started _ _ h1]
    show (Ev.start s).serveSetHold _ = _
    simp only [Ev.serveSetHold, holdArgs_tierByte, he]
  refine ⟨_, request_answered 0x0C tag _ s hr, ?_⟩
  rw [hserved]
  exact ⟨rfl, rfl, rfl, rfl⟩

section
variable (e : Ev) (k : Fin 4)

/-- The HOST hold of a tier is set or taken out, and POWER is queued (R133, R136). -/
def Ev.hostPut (on : Bool) : Ev :=
  (e.setTier k fun x => { x with holds := x.holds.put .host on }).powerNotice

/-- The tier counts the hold that sheds it (R133). -/
def Ev.hostSheds : Ev := (e.hostPut k true).setTier k fun x => { x with shedCount := satInc 65535 x.shedCount }

/-- The tier's record after the change of its HOST hold. -/
theorem Ev.hostPut_tier (on : Bool) :
    (e.hostPut k on).tiers[k] = { e.tiers[k] with holds := e.tiers[k].holds.put .host on } := by
  simp [Ev.hostPut]

/-- The tier's record after the hold that sheds it. -/
theorem Ev.hostSheds_tier :
    (e.hostSheds k).tiers[k]
      = { holds := e.tiers[k].holds.put .host true, shedCount := satInc 65535 e.tiers[k].shedCount } := by
  simp [Ev.hostSheds, Ev.hostPut]

/-- A HOST hold on an empty set sheds the tier: its members get shed requests (R134). -/
theorem Ev.placeHold_first (h : e.tiers[k].holds = ⟨false, false, false, false⟩) :
    e.placeHold .host k = (e.members k).foldl Ev.shedRequest (e.hostSheds k) := by
  have hhas : ¬ e.tiers[k].holds.has .host = true := by
    rw [h]
    decide
  have hwas : ¬ e.tierShed k = true := by
    rw [State.tierShed, h]
    decide
  unfold Ev.placeHold
  rw [if_neg hhas]
  exact if_neg hwas

/-- The removal of the HOST hold that stands alone ends the shedding: the tier's members get unshed requests (R135). -/
theorem Ev.removeHold_last (h : e.tiers[k].holds = ⟨false, false, false, true⟩) :
    e.removeHold .host k = (e.members k).foldl Ev.unshedRequest (e.hostPut k false) := by
  have hhas : e.tiers[k].holds.has .host = true := by
    rw [h]
    rfl
  have hnow : ¬ (e.hostPut k false).tierShed k = true := by
    rw [State.tierShed, Ev.hostPut_tier, h]
    exact Bool.false_ne_true
  unfold Ev.removeHold
  rw [if_pos hhas]
  exact if_neg hnow

end

/-! ### Shed and unshed requests -/

/-- The event has marked nothing, and its rails, records and run in hand stand as in `s`. -/
structure Ev.RailsAs (e : Ev) (s : State) : Prop where
  rails : e.rails = s.rails
  faults : e.faults = s.faults
  run : e.run = s.run
  now : e.now = s.now
  cfg : e.cfg = s.cfg
  ans : e.ans = none
  tgtChanged : e.tgtChanged = false
  arb : e.arb = false
  act : e.act = none

/-- The change of a HOST hold leaves the rails to the requests. -/
theorem Ev.hostPut_railsAs (s : State) (k : Fin 4) (on : Bool) : ((Ev.start s).hostPut k on).RailsAs s := by
  constructor <;> rfl

/-- The same for the hold that sheds. -/
theorem Ev.hostSheds_railsAs (s : State) (k : Fin 4) : ((Ev.start s).hostSheds k).RailsAs s := by
  constructor <;> rfl

section
variable (e : Ev) {r : Rail}

/-- A shed request to a rail that runs, no detector present and its drain going on (R41). -/
theorem Ev.shedRequest_runs (hx : e.rails[r].state = .on ∨ e.rails[r].state = .ramping)
    (h1 : e.rails[r].winDetector = false) (h2 : e.rails[r].pgDetector = false)
    (h : (e.railCfg r).monitor ≠ .pg ∨ e.rails[r].pgLevel = .high) :
    e.shedRequest r = e.withRail r (e.drainingTo r e.rails[r] .shed) := by
  rw [← Ev.drainStart_drains e .shed h1 h2 h]
  obtain hx | hx := hx <;> simp only [Ev.shedRequest, hx]

/-- A shed request to a rail that drains towards its next attempt (R41). -/
theorem Ev.shedRequest_between (hx : e.rails[r].state = .draining) (hd : e.rails[r].dest = .ramp) :
    e.shedRequest r = e.withRail r { e.rails[r] with dest := .shed } := by
  have hreq : e.shedRequest r = e.setRail r fun x => { x with dest := .shed } := by
    simp only [Ev.shedRequest, hx, hd, if_true]
  exact hreq.trans (e.setRail_eq r _)

/-- An unshed request to a SHED rail that does not meet its monitor condition at once (R41). -/
theorem Ev.unshedRequest_ramps (hx : e.rails[r].state = .shed) (hs : e.railShed r = false) (hn : e.notMetAtOnce r) :
    e.unshedRequest r = e.withRail r (e.rampingAt r e.rails[r] 1) :=
  (if_pos hx).trans (Ev.rampStart_ramps e hs hn)

end

/-- A member of a tier is shed with it (R26, R132). -/
theorem State.railShed_member (s : State) {k : Fin 4} {r : Rail} (h : r ∈ s.members k) :
    s.railShed r = s.tierShed k := by
  have htier : tierOf (s.railCfg r).tier = some k := of_decide_eq_true (List.mem_filter.1 h).2
  rw [State.railShed, htier]

section
variable {e : Ev} {s : State} {r : Rail}

/-- With one rail's record replaced nothing is left to serve. -/
theorem Ev.RailsAs.settle (he : e.RailsAs s) (y : RailRt) : (e.withRail r y).settle = e.withRail r y :=
  Ev.settle_quiet (e.withRail r y) he.ans he.tgtChanged he.arb he.act

/-- What then stands beside the tiers. -/
theorem Ev.RailsAs.withRail (he : e.RailsAs s) (y : RailRt) :
    (e.withRail r y).rails = s.rails.set r y ∧ (e.withRail r y).faults = s.faults ∧ (e.withRail r y).run = s.run :=
  ⟨congrArg (·.set r y) he.rails, he.faults, he.run⟩

theorem Ev.RailsAs.rail (he : e.RailsAs s) : e.rails[r] = s.rails[r] := by rw [he.rails]

theorem Ev.RailsAs.railCfg (he : e.RailsAs s) : e.railCfg r = s.railCfg r := congrArg (·.rails[r]) he.cfg

/-- A shed request to a rail that runs, by the state before the hold. -/
theorem Ev.RailsAs.shedRequest_runs (he : e.RailsAs s) (hx : s.rails[r].state = .on ∨ s.rails[r].state = .ramping)
    (h1 : s.rails[r].winDetector = false) (h2 : s.rails[r].pgDetector = false)
    (h : (s.railCfg r).monitor ≠ .pg ∨ s.rails[r].pgLevel = .high) :
    e.shedRequest r = e.withRail r (s.drainingTo r s.rails[r] .shed) := by
  rw [← he.rail] at hx h1 h2 h ⊢
  rw [Ev.shedRequest_runs e hx h1 h2 (by rwa [he.railCfg]), State.drainingTo, he.railCfg, he.now]
  rfl

/-- A shed request between two attempts, by the state before the hold. -/
theorem Ev.RailsAs.shedRequest_between (he : e.RailsAs s) (hx : s.rails[r].state = .draining)
    (hd : s.rails[r].dest = .ramp) : e.shedRequest r = e.withRail r { s.rails[r] with dest := .shed } := by
  rw [← he.rail] at hx hd ⊢
  exact Ev.shedRequest_between e hx hd

/-- An unshed request, by the state before the hold's removal. -/
theorem Ev.RailsAs.unshedRequest_ramps (he : e.RailsAs s) (hx : s.rails[r].state = .shed) (hs : e.railShed r = false)
    (hn : s.notMetAtOnce r) : e.unshedRequest r = e.withRail r (s.rampingAt r s.rails[r] 1) := by
  have hn' : e.notMetAtOnce r := by
    rw [State.notMetAtOnce, he.railCfg, he.rail]
    exact hn
  rw [← he.rail] at hx ⊢
  rw [Ev.unshedRequest_ramps e hx hs hn', State.rampingAt, he.railCfg, he.now]
  rfl

end

section
variable (s : State) {k : Fin 4} {r : Rail} (hmem : s.members k = [r])
include hmem

/-- A HOST hold on the empty set of a tier with one rail member: the event from which the member's shed request goes
out (R134). -/
theorem Ev.placeHold_member (hk : s.tiers[k].holds = ⟨false, false, false, false⟩) :
    ∃ e : Ev, (Ev.start s).placeHold .host k = e.shedRequest r ∧ e.RailsAs s
      ∧ e.tiers[k] = ⟨⟨false, false, false, true⟩, satInc 65535 s.tiers[k].shedCount⟩ := by
  refine ⟨(Ev.start s).hostSheds k, ?_, Ev.hostSheds_railsAs s k, ?_⟩
  · rw [Ev.placeHold_first _ k hk, show (Ev.start s).members k = [r] from hmem]
    rfl
  · rw [Ev.hostSheds_tier, Ev.start_tiers, hk]
    rfl

/-- The removal of the last hold of a tier with one rail member: the event from which the member's unshed request goes
out (R135). -/
theorem Ev.removeHold_member (hk : s.tiers[k].holds = ⟨false, false, false, true⟩) :
    ∃ e : Ev, (Ev.start s).removeHold .host k = e.unshedRequest r ∧ e.RailsAs s ∧ e.railShed r = false
      ∧ e.tiers[k] = ⟨⟨false, false, false, false⟩, s.tiers[k].shedCount⟩ := by
  have htier : ((Ev.start s).hostPut k false).tiers[k] = ⟨⟨false, false, false, false⟩, s.tiers[k].shedCount⟩ := by
    rw [Ev.hostPut_tier, Ev.start_tiers, hk]
    rfl
  refine ⟨(Ev.start s).hostPut k false, ?_, Ev.hostPut_railsAs s k false, ?_, htier⟩
  · rw [Ev.removeHold_last _ k hk, show (Ev.start s).members k = [r] from hmem]
    rfl
  · have hin : r ∈ ((Ev.start s).hostPut k false).members k := by
      rw [show ((Ev.start s).hostPut k false).members k = [r] from hmem]
      exact List.mem_singleton_self r
    rw [State.railShed_member _ hin, State.tierShed, htier]
    rfl

end

/-- Settles O33. A running member's request may let the engine run on from a waiting step; the tier's record stands
through it, for the tier holds no RIDE. -/
theorem holdShedsAndUnshedsARail : Obligations.HoldShedsAndUnshedsARail := by
  intro s tag k r hready hsys hmem empty x
  refine ⟨fun hk => ?_, fun hk hx hn => ?_⟩
  · obtain ⟨e, hplace, he, htier⟩ := Ev.placeHold_member s hmem hk
    have hkept : (e.shedRequest r).settle.tiers[k] = e.tiers[k] :=
      ((Ev.settle_keepsTier _).behind (e.shedRequest_tiers r)) (by rw [htier])
    obtain ⟨t, hexec, htiers, hrails, hfaults, hrun⟩ := exec_setHold s tag k true hready hsys
      (congrArg Ev.settle ((if_pos rfl).trans hplace))
    have hone {y : RailRt} (h : e.shedRequest r = e.withRail r y) :
        t.rails = s.rails.set r y ∧ t.faults = s.faults ∧ t.run = s.run := by
      rw [hrails, hfaults, hrun, h, he.settle]
      exact he.withRail y
    refine ⟨t, hexec, ?_, fun hx h1 h2 h => hone (he.shedRequest_runs hx h1 h2 h),
      fun hx hd => hone (he.shedRequest_between hx hd)⟩
    rw [htiers, hkept, htier]
  · obtain ⟨e, hremove, he, hfree, htier⟩ := Ev.removeHold_member s hmem hk
    rw [he.unshedRequest_ramps hx hfree hn] at hremove
    obtain ⟨t, hexec, htiers, hrails, hfaults, hrun⟩ := exec_setHold s tag k false hready hsys
      (congrArg Ev.settle ((if_neg Bool.false_ne_true).trans hremove))
    rw [he.settle] at htiers hrails hfaults hrun
    refine ⟨t, hexec, ?_, ?_⟩
    · rw [htiers]
      exact htier
    · rw [hrails, hfaults, hrun]
      exact he.withRail _

end Sys2Proof.Machine

namespace Sys2Proof.Machine

/-! ### Requests that their owner refuses or serves -/

/-- A request that finds the link ready outside STARTING: the state its owner leaves, with the reply (R163). -/
theorem request_dispatched (k t : Byte) (b : List Byte) (s : State) (hr : s.ready) (hs : s.sys ≠ .starting)
    {r : Served} (h : (Ev.start s).dispatch ⟨k, t, b⟩ = r) :
    request k t b s = .next (r.ev.finish.replied ⟨k, t, b⟩ r.status r.body) := by
  rw [request_answered k t b s hr, Ev.served_started _ _ hs, h]

/-! ### The end of a waiting handshake -/

/-- The engine waits for a handshake exactly while a HANDSHAKE step is in flight (R56). -/
theorem State.handshakeWaits_iff (s : State) : s.handshakeWaits = true ↔ ∃ d, s.waitOf = .handshake d := by
  unfold State.handshakeWaits
  cases s.waitOf <;> simp

/-- The state with the handshake of `run` ended: the memory, the slot of a down or snap plan, and OFF_PENDING
withdrawn (R57, R129). -/
def State.handshakeOver (s : State) (run : Run) (m : HsMemory) (o : HsOutcome) : State :=
  { s with
    hsMemory := m
    notices := s.notices.filter fun n => decide (n.key ≠ .offPending)
    ride.slot := if run.plan.isUp || run.plan.isService then s.ride.slot else o }

/-- What the end of a waiting handshake does, for the run in hand (R57). -/
theorem Ev.endHandshake_eq (e : Ev) {run : Run} (m : HsMemory) (o : HsOutcome) (note : Cause) (hr : e.run = some run) :
    e.endHandshake m o note
      = (((Ev.withdraw { e with hsMemory := m } .offPending).slotTakes run.plan o).answer (.completed note)) := by
  simp only [Ev.endHandshake, hr]

/-- The end of a handshake is an answer to the step in flight over the state with the handshake ended (R57). -/
theorem Ev.endHandshake_start (s : State) {run : Run} (m : HsMemory) (o : HsOutcome) (note : Cause)
    (hr : s.run = some run) :
    (Ev.start s).endHandshake m o note = (Ev.start (s.handshakeOver run m o)).answer (.completed note) := by
  rw [Ev.endHandshake_eq (Ev.start s) m o note hr, Ev.slotTakes_eq]
  rfl

/-- A handshake ends and the plan goes on to a WAIT (R50, R57). -/
theorem Ev.settle_endHandshake (s : State) {run : Run} {d ms : Nat} (m : HsMemory) (o : HsOutcome) {note : Cause}
    (h : s.waitsOn (.handshake d) run ms) (hn : note ≠ .drainLate) :
    ((Ev.start s).endHandshake m o note).settle = Ev.start ((s.handshakeOver run m o).passed run ms note) := by
  have hw : (s.handshakeOver run m o).waitsOn (.handshake d) run ms := h
  rw [Ev.endHandshake_start s m o note h.1]
  exact Ev.settle_answer _ _ hw ⟨rfl, fun hd => absurd hd hn⟩

/-- ACK_OFF with a handshake waiting ends it ACKED (R57, R167). -/
theorem Ev.serveAckOff_waiting (e : Ev) {d : Nat} (h : e.waitOf = .handshake d) :
    e.serveAckOff [] = { ev := (e.endHandshake .acked .acked .none).settle, status := .ok, body := [] } := by
  simp [Ev.serveAckOff, (State.handshakeWaits_iff _).2 ⟨d, h⟩]

/-- ACK_OFF with no handshake waiting is refused, by the memory of the last one (R57, R167). -/
theorem Ev.serveAckOff_refused (e : Ev) (h : ∀ d, e.waitOf ≠ .handshake d) :
    e.serveAckOff [] = e.refuse (if e.hsMemory = .late then .tooLate else .wrongState) := by
  have hw : e.handshakeWaits = false := by
    rw [Bool.eq_false_iff, ne_eq, State.handshakeWaits_iff]
    rintro ⟨d, hd⟩
    exact h d hd
  by_cases hm : e.hsMemory = .late <;> simp [Ev.serveAckOff, hw, hm]

/-- The deadline of a handshake runs out (R57). -/
theorem exec_handshakeDeadlineExpiry (s : State) {d : Nat} (h : s.waitOf = .handshake d) :
    exec .handshakeDeadlineExpiry s = .next ((Ev.start s).endHandshake .late .late .late).settle.finish := by
  have hw : (Ev.start s).handshakeWaits = true := (State.handshakeWaits_iff s).2 ⟨d, h⟩
  simp only [exec, execHandshakeDeadlineExpiry, runEvent, hw, if_true]

/-- Settles O27: both ends of a handshake are one operation, with the note LATE at the deadline. -/
theorem handshakeIsAnsweredOrLate : Obligations.HandshakeIsAnsweredOrLate := by
  intro s tag
  refine ⟨fun run d ms hr hd hnext => ?_, fun h hready hs => ?_⟩
  · have hwait : s.waitsOn (.handshake d) run ms := ⟨hr, hd, hnext⟩
    refine ⟨fun hready hs => ?_, ?_⟩
    · refine (request_dispatched 0x04 tag [] s hready hs (Ev.serveAckOff_waiting _ hwait.waitOf)).trans ?_
      rw [Ev.settle_endHandshake s _ _ hwait (by decide)]
      rfl
    · rw [exec_handshakeDeadlineExpiry s hwait.waitOf, Ev.settle_endHandshake s _ _ hwait (by decide)]
      rfl
  · exact request_dispatched 0x04 tag [] s hready hs (Ev.serveAckOff_refused _ h)

end Sys2Proof.Machine

namespace Sys2Proof.Machine

/-! ### The requests of service plans -/

/-- Where an operation has marked a trigger of the arbiter and nothing else, the arbiter runs (R61). -/
theorem Ev.settle_triggered (e : Ev) (hans : e.ans = none) (htgt : e.tgtChanged = false) (harb : e.arb = true) {y : Ev}
    (hy : e.arbitrate = y) (hact : y.act = none) : e.settle = y :=
  Ev.settle_ended (fun _ => by rw [Ev.runSteps_quiet _ e hans, Ev.runSteps_quiet _ e hans]) hans htgt harb hy hact

/-- A plan in hand is RUNNING or in TAIL (R48). -/
theorem State.planStatus_runs (s : State) {p : PlanId} (h : s.runningPlan = some p) :
    s.planStatus p = .running ∨ s.planStatus p = .tail := by
  obtain ⟨run, hr, rfl⟩ := Option.map_eq_some_iff.1 h
  simp only [State.planStatus, hr, if_true]
  cases run.inTail <;> simp

/-- Service plan `p` is named by byte `b` of a RUN_SERVICE (R65). -/
def PlanId.namedBy (p : PlanId) (b : Byte) : Prop := (b = 6 ∧ p = .panelCare) ∨ (b = 7 ∧ p = .user)

/-- A RUN_SERVICE's byte names its plan (R65). -/
theorem serviceArg_of_namedBy {p : PlanId} {b : Byte} (h : p.namedBy b) : serviceArg [b] = some p := by
  obtain ⟨rfl, rfl⟩ | ⟨rfl, rfl⟩ := h <;> rfl

/-- The states that allow each service plan (R45). -/
theorem State.allowsService_iff (s : State) {p : PlanId} {b : Byte} (h : p.namedBy b) :
    s.allowsService p = true
      ↔ (p = .panelCare ∧ s.sys = .standby) ∨ s.sys = .boardOn ∨ (p = .user ∧ s.sys = .panelOn) := by
  unfold State.allowsService
  obtain ⟨-, rfl⟩ | ⟨-, rfl⟩ := h <;> cases s.sys <;> simp

section
variable (e : Ev) {p : PlanId} {b : Byte} (hb : p.namedBy b)
include hb

/-- A service plan that the state does not allow is refused (R65). -/
theorem Ev.serveRunService_wrongState (h : ¬ e.allowsService p = true) :
    e.serveRunService [b] = e.refuse .wrongState := by
  simp only [Ev.serveRunService, serviceArg_of_namedBy hb, if_neg h]

/-- A service plan in hand is refused (R65). -/
theorem Ev.serveRunService_busy (h : e.allowsService p = true) (hp : e.runningPlan = some p) :
    e.serveRunService [b] = e.refuse .busy := by
  simp only [Ev.serveRunService, serviceArg_of_namedBy hb, if_pos h]
  obtain hp | hp := State.planStatus_runs _ hp <;> simp only [hp]

/-- A request for a pending service plan is merged with its entry (R65). -/
theorem Ev.serveRunService_merges (h : e.allowsService p = true) (hp : e.planStatus p = .pending) :
    e.serveRunService [b]
      = { ev := e.setPlan p fun x => { x with merged := true }, status := .ok, body := [] } := by
  simp only [Ev.serveRunService, serviceArg_of_namedBy hb, if_pos h, hp]

/-- A request for an idle service plan makes an entry and triggers the arbiter (R61, R65). -/
theorem Ev.serveRunService_requests (h : e.allowsService p = true) (hp : e.planStatus p = .idle) {y : Ev}
    (hy : Ev.settle { e with reqs := e.reqs.put p (some .hostRequest), arb := true } = y) :
    e.serveRunService [b] = { ev := y, status := .ok, body := [] } := by
  simp only [Ev.serveRunService, serviceArg_of_namedBy hb, if_pos h, hp, hy]

end

/-- A service plan that the state allows is not withdrawn (R62). -/
theorem Ev.withdrawService_allowed (e : Ev) {p : PlanId} (h : e.isPending p = true → e.allowsService p = true) :
    e.withdrawService p = e := by
  unfold Ev.withdrawService
  refine if_neg fun hdue => ?_
  obtain ⟨hp, hn⟩ := Bool.and_eq_true_iff.1 hdue
  rw [h hp] at hn
  exact Bool.false_ne_true hn

/-- With one service plan pending that the state allows, and no transition plan startable, the arbiter picks it
(R61). -/
theorem Ev.choose_service (e : Ev) {p : PlanId} {b : Byte} {c : Cause} (hb : p.namedBy b)
    (hq : e.reqs = PendingSet.none.put p (some c)) (hst : e.startable = none) (ha : e.allowsService p = true) :
    e.choose = (e, some p) := by
  have hpend (q : PlanId) : e.isPending q = decide (q = p) := by
    rw [State.isPending, hq]
    obtain ⟨-, rfl⟩ | ⟨-, rfl⟩ := hb <;> cases q <;> rfl
  have hkeep (q : PlanId) : e.withdrawService q = e :=
    Ev.withdrawService_allowed e fun h => by
      rw [hpend, decide_eq_true_eq] at h
      rwa [h]
  have hsys : e.sys ≠ .starting ∧ e.sys ≠ .unconfigured := by
    obtain ⟨-, h⟩ | h | ⟨-, h⟩ := (State.allowsService_iff _ hb).1 ha <;> simp [h]
  unfold Ev.choose
  split
  · exact absurd ‹_› hsys.1
  · exact absurd ‹_› hsys.2
  all_goals
    simp only [hpend, hst, hkeep]
    obtain ⟨-, rfl⟩ | ⟨-, rfl⟩ := hb <;> rfl

/-- The start of a service plan that alone is pending, where supervision is inactive (R49). -/
theorem State.planBegun_service (s : State) {p : PlanId} {b : Byte} {c : Cause} {ms : Nat} (hb : p.namedBy b)
    (hsup : s.sup = .inactive) (hq : s.reqs = PendingSet.none.put p (some c)) :
    s.planBegun p ms = { s with
      run := some (s.firstWait p c ms)
      plans := s.plans.set p.idx s.plans[p.idx].atStart
      reqs := PendingSet.none } := by
  have hwatch : (if s.sup = .watching then Stopwatch.stopped (s.countedUs s.watch) else s.watch) = s.watch :=
    if_neg (by rw [hsup]; decide)
  unfold State.planBegun
  rw [hwatch, hq, ← hsup]
  obtain ⟨-, rfl⟩ | ⟨-, rfl⟩ := hb <;> rfl

/-- The arbiter starts the one service plan that is requested, up to the WAIT of its first step (R49, R61). -/
theorem Ev.settle_requested (s : State) {p : PlanId} {b : Byte} {ms : Nat} (hb : p.namedBy b) (hr : s.run = none)
    (hq : s.reqs = PendingSet.none) (hst : s.startable = none) (ha : s.allowsService p = true)
    (hw : s.opensWithWait p ms) (hsup : s.sup = .inactive) (hdip : s.dipSeen = false ∨ s.ride.state ≠ .normal) :
    Ev.settle { Ev.start s with reqs := s.reqs.put p (some .hostRequest), arb := true }
      = Ev.start { s with
          run := some (s.firstWait p .hostRequest ms)
          plans := s.plans.set p.idx s.plans[p.idx].atStart } := by
  let e : Ev := { Ev.start s with reqs := s.reqs.put p (some .hostRequest), arb := true }
  have hreqs : e.reqs = PendingSet.none.put p (some .hostRequest) :=
    congrArg (fun q => q.put p (some .hostRequest)) hq
  have hchoose : e.choose = (e, some p) := Ev.choose_service e hb hreqs hst ha
  refine (Ev.settle_triggered e rfl rfl rfl (Ev.arbitrate_starts e p hr hchoose (.inl hsup) hdip hw) rfl).trans ?_
  rw [State.planBegun_service e.toState hb hsup hreqs, ← hq]
  rfl

/-- Settles O34: one clause for each outcome of the request, the two that reach the arbiter by what it finds. -/
theorem runServiceRequestsThePlan : Obligations.RunServiceRequestsThePlan := by
  intro s tag p b hready hs hb ok
  have hok : s.allowsService p = true ↔ ok := s.allowsService_iff hb
  have hreq {r : Served} (h : (Ev.start s).serveRunService [b] = r) :
      exec (.runService tag [b]) s = .next (r.ev.finish.replied ⟨0x0D, tag, [b]⟩ r.status r.body) :=
    request_dispatched 0x0D tag [b] s hready hs h
  refine ⟨fun h => ?_, fun h hp => ?_, fun h hp => ?_, fun h hp hr => ?_, fun ms h hr hq hst hw hsup hdip => ?_⟩
  · exact hreq (Ev.serveRunService_wrongState _ hb (mt hok.1 h))
  · exact hreq (Ev.serveRunService_busy _ hb (hok.2 h) hp)
  · exact hreq (Ev.serveRunService_merges _ hb (hok.2 h) hp)
  · let e : Ev := { Ev.start s with reqs := s.reqs.put p (some .hostRequest), arb := true }
    have hsettle : e.settle = { e with arb := false } :=
      Ev.settle_triggered e rfl rfl rfl (Ev.arbitrate_still e rfl (.inl hr)) rfl
    exact hreq (Ev.serveRunService_requests _ hb (hok.2 h) hp hsettle)
  · have hidle : s.planStatus p = .idle :=
      State.planStatus_idle s (fun run h => by simp [hr] at h) (by rw [State.isPending, hq]; cases p <;> rfl)
    exact hreq (Ev.serveRunService_requests _ hb (hok.2 h) hidle
      (Ev.settle_requested s hb hr hq hst (hok.2 h) hw hsup hdip))

end Sys2Proof.Machine

namespace Sys2Proof.Machine

/-! ### The LOCK pin and its qualifier -/

/-- The qualifier times a level of the pin that is not the qualified one (R78). -/
theorem Ev.lockLook_eq (e : Ev) :
    e.lockLook
      = { e with lockTimer := if e.pins.lock = e.lockLevel then none else e.after e.cfg.lock.deglitchMs } := by
  by_cases h : e.pins.lock = e.lockLevel
  · simp only [Ev.lockLook, if_pos h]
  · simp only [Ev.lockLook, if_neg h]

/-- A new level of the LOCK pin is timed, or drops the timing if it is the qualified level (R78). -/
theorem exec_lockPinChange_new (s : State) {high : Bool} (h : high ≠ s.pins.lock) :
    exec (.lockPinChange high) s = .next { s with
      pins.lock := high
      lockTimer := if high = s.lockLevel then none else some (s.now + 1000 * s.cfg.lock.deglitchMs) } := by
  have hp : ¬ high = (Ev.start s).pins.lock := h
  simp only [exec, execLockPinChange, runEvent, if_neg hp, Ev.lockLook_eq]
  rfl

/-- The state with the qualified LOCK level taken from the pin (R78). -/
def State.lockTaken (s : State) : State := { s with lockLevel := s.pins.lock, lockTimer := none }

/-- A timed level is taken, then its users act on it: the step in flight, and supervision (R78). -/
theorem exec_lockDeglitchExpiry (s : State) (h : s.lockTimer ≠ none) :
    exec .lockDeglitchExpiry s = .next (Ev.start s.lockTaken).lockStep.superviseLock.settle.finish := by
  have ht : (Ev.start s).lockTimer.isSome = true := Option.isSome_iff_ne_none.2 h
  simp only [exec, execLockDeglitchExpiry, runEvent, if_pos ht]
  rfl

/-- With no AWAIT_LOCK in progress no step hears of the qualified level (R55). -/
theorem Ev.lockStep_unheard (e : Ev) (h : ∀ d, e.waitOf ≠ .lock d) : e.lockStep = e := by
  unfold Ev.lockStep
  split
  next d hd => exact absurd hd (h d)
  all_goals rfl

/-- A waiting AWAIT_LOCK completes when the qualified level is asserted (R55). -/
theorem Ev.lockStep_completes (e : Ev) {d : Nat} (hw : e.waitOf = .lock d) (hl : e.lockLevel = true) :
    e.lockStep = e.answer (.completed .none) := by
  simp only [Ev.lockStep, hw, hl, if_true]

/-! ### Supervision and the qualified level -/

/-- A supervision that does not watch lets the qualified level be (R82). -/
theorem Ev.superviseLock_aside (e : Ev) (h : e.sup = .inactive ∨ e.sup = .expired) : e.superviseLock = e := by
  unfold Ev.superviseLock
  obtain h | h := h <;> rw [h]

/-- What supervision writes as it enters GRACE, before the occurrence (R80, R82). -/
def State.graced (s : State) : State :=
  { s with sup := .grace (s.now + 1000 * s.cfg.lock.graceMs), watch := .stopped (s.countedUs s.watch) }

/-- A loss in WATCHING enters GRACE and is reported with the time watched (R82). -/
theorem Ev.superviseLock_lost (s : State) (hsup : s.sup = .watching) (hl : s.lockLevel = false) :
    (Ev.start s).superviseLock = Ev.start (s.graced.occurred srcLockLoss
      { cause := .lockLost, value := s.watchMs, latching := false, withCondition := true, action := .none }) := by
  simp only [Ev.superviseLock, Ev.start_sup, hsup, Ev.start_lockLevel, hl]
  exact Ev.occurrence_start s.graced srcLockLoss _

/-- A recovery in GRACE ends the condition and watches anew (R83). -/
theorem Ev.superviseLock_recovers (s : State) {d : Nat} (hsup : s.sup = .grace d) (hl : s.lockLevel = true)
    (hf : s.faults[srcLockLoss].state = .active) (hc : s.faults[srcLockLoss].firstCause ≠ .none) :
    (Ev.start s).superviseLock
      = Ev.start (({ s with sup := .watching, watch := .running s.now } : State).eased srcLockLoss) := by
  have h : (Ev.start s).superviseLock = ((Ev.start s).conditionEnded srcLockLoss).enterWatching := by
    simp only [Ev.superviseLock, Ev.start_sup, hsup, Ev.start_lockLevel, hl]
  rw [h, Ev.conditionEnded_active s srcLockLoss hf hc]
  rfl

/-! ### A plan that starts under the dark hold -/

/-- The marks of an event have no part in the end of a condition. -/
theorem Ev.conditionEnded_eq (e : Ev) (src : Fin 15) :
    e.conditionEnded src = e.upd ((Ev.start e.toState).conditionEnded src).toState e.ans := by
  let y : Ev := e.setFault src fun f => { f with condition := false }
  have h : (Ev.start e.toState).conditionEnded src
      = if e.faults[src].condition then
          if y.faults[src].state = e.faults[src].state then Ev.start y.toState
          else Ev.start (y.faultNotice src).toState
        else Ev.start e.toState := rfl
  rw [h, show e.conditionEnded src = if e.faults[src].condition then
    if y.faults[src].state = e.faults[src].state then y else y.faultNotice src else e from rfl]
  split_ifs <;> rfl

/-- The start of a plan ends a dark hold, and with it the condition of LOCK_LOSS (R85). -/
theorem Ev.endSupervision_expired (e : Ev) (hsup : e.sup = .expired) (hf : e.faults[srcLockLoss].state = .active)
    (hc : e.faults[srcLockLoss].firstCause ≠ .none) :
    e.endSupervision = e.upd (({ e.toState with sup := .inactive } : State).eased srcLockLoss) e.ans := by
  simp only [Ev.endSupervision, hsup]
  rw [Ev.conditionEnded_eq, Ev.conditionEnded_active { e.toState with sup := .inactive } srcLockLoss hf hc]
  rfl

/-- The state with plan `p`, which is no snap plan, started out of a dark hold and waiting out its first step, a WAIT of
`ms` ms (R49, R85). -/
def State.planBegunDark (s : State) (p : PlanId) (ms : Nat) : State :=
  ({ s with
    run := some (s.firstWait p ((s.reqs.get p).getD .planned) ms)
    plans := s.plans.set p.idx s.plans[p.idx].atStart
    reqs := s.reqs.put p none
    sup := .inactive } : State).eased srcLockLoss

/-- The start of a plan under an EXPIRED dark hold where no dip is seen, up to the WAIT of its first step. -/
theorem Ev.startPlan_expired (e : Ev) (p : PlanId) {ms : Nat} (hp : p.isSnap = false) (hsup : e.sup = .expired)
    (hf : e.faults[srcLockLoss].state = .active) (hc : e.faults[srcLockLoss].firstCause ≠ .none)
    (hd : e.dipSeen = false ∨ e.ride.state ≠ .normal) (hw : e.opensWithWait p ms) :
    e.startPlan p = e.upd (e.planBegunDark p ms) none := by
  obtain ⟨hb, hk, hv, hms⟩ := hw
  let s1 : State := ({ e.planSet p with sup := .inactive } : State).eased srcLockLoss
  have h2 : (e.upd (e.planSet p) none).endSupervision = e.upd s1 none := Ev.endSupervision_expired _ hsup hf hc
  have hpulse : (e.upd s1 none).upd { s1 with pulse := if p.isSnap then .idle else s1.pulse } none = e.upd s1 none := by
    rw [hp]
    rfl
  have h3 : ((e.upd s1 none).upd { s1 with pulse := if p.isSnap then .idle else s1.pulse } none).judgeDip
      = e.upd s1 none := by
    rw [hpulse]
    exact Ev.judgeDip_none _ hd
  rw [Ev.startPlan_steps e p h2 h3 hb]
  exact Ev.beginStep_wait (e.upd s1 none) rfl hk hv hms

/-- The arbiter's run starts the plan it picks; a plan whose first step waits keeps the engine busy (R60, R61). -/
theorem Ev.arbitrate_starts_of (e : Ev) {p : PlanId} {t : State} (hr : e.run = none) (hc : e.choose = (e, some p))
    (hs : e.startPlan p = e.upd t none) (ht : t.run ≠ none) (hpe : e.planEnded = false) :
    e.arbitrate = { e.upd t none with arb := false, tgtChanged := false } := by
  have hi : e.engineIdle = true := by simp [State.engineIdle, hr]
  have hrun : Ev.runArbiter planFuel e = e.upd t none := by
    rw [planFuel, Ev.runArbiter, if_pos hi, hc]
    simp only [hs]
    rw [Ev.runSteps_quiet _ _ rfl, Ev.runArbiter_busy _ _ ht]
  simp only [Ev.arbitrate, hrun, Ev.upd_planEnded, hpe, Bool.false_eq_true, if_false]

/-! ### The end of the grace time -/

/-- With no grace time running its expiry has no effect (log 3). -/
theorem exec_graceExpiry_idle (s : State) (h : ∀ d, s.sup ≠ .grace d) : exec .graceExpiry s = .next s := by
  simp only [exec, execGraceExpiry, runEvent, Ev.start_sup]
  cases hs : s.sup with
  | grace d => exact absurd hs (h d)
  | inactive | watching | expired => rfl

/-- The grace time runs out: EXPIRED, and the target BOARD_ON is written (R84). -/
theorem exec_graceExpiry (s : State) {d : Nat} (h : s.sup = .grace d) :
    exec .graceExpiry s
      = .next ((Ev.start { s with sup := .expired }).writeTarget .boardOn).settle.finish := by
  simp only [exec, execGraceExpiry, runEvent, Ev.start_sup, h]
  rfl

/-- The target BOARD_ON, newly written in PANEL_ON under an EXPIRED dark hold with the engine idle, starts PANEL_DOWN
(R5, R85). -/
theorem Ev.settle_panelDown (s : State) {ms : Nat} (hsup : s.sup = .expired) (hs : s.sys = .panelOn)
    (ht : s.target = .panelOn) (hr : s.run = none) (hq : s.reqs = PendingSet.none)
    (hf : s.faults[srcLockLoss].state = .active) (hc : s.faults[srcLockLoss].firstCause ≠ .none)
    (hd : s.dipSeen = false ∨ s.ride.state ≠ .normal) (hw : s.opensWithWait .panelDown ms) :
    ((Ev.start s).writeTarget .boardOn).settle.finish
      = (({ s with
          sup := .inactive
          target := .boardOn
          retArmed := false
          run := some (s.firstWait .panelDown .planned ms)
          plans := s.plans.set 2 s.plans[2].atStart } : State).stateTold.eased srcLockLoss) := by
  let w : Ev := ({ Ev.start s with target := .boardOn, retArmed := false } : Ev).stateNotice
  let x : Ev := { w with arb := true }
  have hwrite : (Ev.start s).writeTarget .boardOn = { w with tgtChanged := true } :=
    if_neg (by rw [Ev.start_target, ht]; decide)
  have hreport : Ev.reportTarget { w with tgtChanged := true } = w := Ev.reportTarget_unmoved _ (.inr hr)
  have hst : x.startable = some .panelDown := by
    have hdue : x.duePlan = some .panelDown := by
      simp only [State.duePlan, show x.sys = .panelOn from hs, show x.target = .boardOn from rfl]
    simp only [State.startable, hdue]
    rfl
  have harb := Ev.arbitrate_starts_of x hr (Ev.choose_startable x hq hst)
    (Ev.startPlan_expired x .panelDown rfl hsup hf hc hd hw) (Option.some_ne_none _) rfl
  rw [hwrite, Ev.settle_target { w with tgtChanged := true } rfl rfl
    ((congrArg (fun e => Ev.arbitrate { e with arb := true }) hreport).trans harb) rfl,
    Ev.finish_told_then _ (k := .fault srcLockLoss) (by simp) (q := s.notices) rfl rfl rfl]
  rfl

/-- Settles O54: the pin, the qualified level by what its users do with it, and the two ends of the grace time. -/
theorem lockIsQualifiedAndSupervised : Obligations.LockIsQualifiedAndSupervised := by
  intro s
  refine ⟨?_, fun high h => exec_lockPinChange_new s h, fun h => ?_, fun h => ?_, exec_graceExpiry_idle s,
    fun d ms hsup => ⟨fun ht => ?_, fun hs ht hr hq hf hc hd hw => ?_⟩⟩
  · simp only [exec, execLockPinChange, runEvent, Ev.start_pins, if_true, Ev.finish_start]
  · simp only [exec, execLockDeglitchExpiry, runEvent, Ev.start_lockTimer, h, Option.isSome_none, Bool.false_eq_true,
      if_false, Ev.finish_start]
  · rw [exec_lockDeglitchExpiry s h]
    have hunheard (hw : ∀ d, s.waitOf ≠ .lock d) : (Ev.start s.lockTaken).lockStep = Ev.start s.lockTaken :=
      Ev.lockStep_unheard _ hw
    refine ⟨fun hw hsup => ?_, fun run d ms hr hd hl hnext hsup => ?_, fun hw hl hsup => ?_,
      fun d hw hl hsup hf hc => ?_⟩
    · rw [hunheard hw, Ev.superviseLock_aside (Ev.start s.lockTaken) hsup, Ev.settle_start]
      rfl
    · have hwait : s.lockTaken.waitsOn (.lock d) run ms := ⟨hr, hd, hnext⟩
      rw [Ev.lockStep_completes (Ev.start s.lockTaken) hwait.waitOf hl,
        Ev.superviseLock_aside ((Ev.start s.lockTaken).answer _) (.inl hsup), 
        Ev.settle_answer _ (.completed .none) (note := .none) hwait ⟨rfl, nofun⟩]
      rfl
    · rw [hunheard hw, Ev.superviseLock_lost s.lockTaken hsup hl, Ev.settle_start]
      exact ⟨_, rfl, rfl, rfl⟩
    · rw [hunheard hw, Ev.superviseLock_recovers s.lockTaken hsup hl hf hc, Ev.settle_start]
      rfl
  · rw [exec_graceExpiry s hsup, show (Ev.start { s with sup := .expired }).writeTarget .boardOn
      = Ev.start { s with sup := .expired } from if_pos ht.symm, Ev.settle_start]
    rfl
  · rw [exec_graceExpiry s hsup]
    exact congrArg _ (Ev.settle_panelDown { s with sup := .expired } rfl hs ht hr hq hf hc hd hw)

end Sys2Proof.Machine

namespace Sys2Proof.Machine

/-! ### The sources of a line's level -/

/-- The reset pulse force is in place exactly while the pulse is ACTIVE (R77). -/
theorem State.pulseActive_iff (s : State) : s.pulseActive = true ↔ ∃ d, s.pulse = .active d := by
  unfold State.pulseActive
  cases s.pulse <;> simp

/-- The dark hold is active exactly in GRACE and EXPIRED (R79). -/
theorem State.darkHold_iff (s : State) : s.darkHold = true ↔ (∃ d, s.sup = .grace d) ∨ s.sup = .expired := by
  unfold State.darkHold
  cases s.sup <;> simp

/-- A hold set holds something exactly when it is not the empty one (R132). -/
theorem HoldSet.any_iff (h : HoldSet) :
    h.any = true ↔ h ≠ { ride := false, limit := false, heat := false, host := false } := by
  obtain ⟨ride, limit, heat, host⟩ := h
  simp only [HoldSet.any, Bool.or_eq_true, ne_eq, HoldSet.mk.injEq]
  grind

/-- The reset pulse force is on the line (R72). -/
def State.pulsed (s : State) (l : LineId) : Prop := l = .sysRstN ∧ s.pulseActive = true

/-- The dark force is on the line (R72, R75). -/
def State.darkened (s : State) (l : LineId) : Prop :=
  s.darkHold = true ∧ (s.cfg.line l).darkMember = true ∧ l ≠ .faultN

/-- The shed force of tier `k` is on the line (R72, R75). -/
def State.shedBy (s : State) (l : LineId) (k : Fin 4) : Prop :=
  s.tierShed k = true ∧ (s.cfg.tiers[k][l.idx]).member = true ∧ l ≠ .faultN

/-- The tiers before tier `k` in the list are those of a lower number. -/
theorem allTiers_split (k : Fin 4) :
    allTiers = allTiers.take k ++ k :: allTiers.drop (k + 1) ∧ ∀ j ∈ allTiers.take k, j < k := by
  revert k
  decide

/-- The lowest-numbered shed tier that contains the line is found (R72). -/
theorem State.sheddingTier_lowest (s : State) {l : LineId} {k : Fin 4} (h : s.shedBy l k)
    (hlow : ∀ j, j < k → ¬ s.shedBy l j) : s.sheddingTier l = some k := by
  obtain ⟨hshed, hmem, hl⟩ := h
  obtain ⟨hsplit, hbefore⟩ := allTiers_split k
  refine List.find?_eq_some_iff_append.2 ⟨by simp only [hshed, hmem, Bool.and_self], _, _, hsplit, fun j hj => ?_⟩
  rw [Bool.not_eq_true', Bool.eq_false_iff, ne_eq, Bool.and_eq_true]
  exact fun ⟨h1, h2⟩ => hlow j (hbefore j hj) ⟨h1, h2, hl⟩

/-- No tier is found where no shed tier contains the line (R72). -/
theorem State.sheddingTier_none (s : State) {l : LineId} (hl : l ≠ .faultN) (h : ∀ k, ¬ s.shedBy l k) :
    s.sheddingTier l = none := by
  refine List.find?_eq_none.2 fun k _ hk => ?_
  obtain ⟨h1, h2⟩ := Bool.and_eq_true_iff.1 hk
  exact h k ⟨h1, h2, hl⟩

/-! ### The source that decides, by the force that is on the line -/

section
variable {s : State} {l : LineId}

/-- The reset pulse comes first (R72). -/
theorem State.lineSource_pulsed (h : s.pulsed l) : s.lineSource l = .pulse := if_pos h

/-- Behind the reset pulse comes the dark hold (R72). -/
theorem State.lineSource_darkened (hp : ¬ s.pulsed l) (h : s.darkened l) : s.lineSource l = .dark := by
  obtain ⟨hdark, hmem, hl⟩ := h
  exact (if_neg hp).trans ((if_neg hl).trans (if_pos ⟨hdark, hmem⟩))

/-- Next comes the lowest-numbered shed tier that contains the line (R72). -/
theorem State.lineSource_shed (hp : ¬ s.pulsed l) (hd : ¬ s.darkened l) {k : Fin 4} (h : s.shedBy l k)
    (hlow : ∀ j, j < k → ¬ s.shedBy l j) : s.lineSource l = .shed k := by
  have ⟨_, _, hl⟩ := h
  refine (if_neg hp).trans ((if_neg hl).trans ((if_neg fun ⟨h1, h2⟩ => hd ⟨h1, h2, hl⟩).trans ?_))
  rw [s.sheddingTier_lowest h hlow]

/-- A line under no force is the plan's; FAULT_N is under none (R72, R75). -/
theorem State.lineSource_plan (hp : ¬ s.pulsed l) (hd : ¬ s.darkened l) (h : ∀ k, ¬ s.shedBy l k) :
    s.lineSource l = .plan := by
  by_cases hl : l = .faultN
  · exact (if_neg hp).trans (if_pos hl)
  · refine (if_neg hp).trans ((if_neg hl).trans ((if_neg fun ⟨h1, h2⟩ => hd ⟨h1, h2, hl⟩).trans ?_))
    rw [s.sheddingTier_none hl h]

end

/-! ### The end of the reset pulse -/

/-- An ACTIVE pulse ends at its expiry (R77). -/
theorem exec_resetPulseExpiry_ends (s : State) {d : Nat} (h : s.pulse = .active d) :
    exec .resetPulseExpiry s = .next { s with pulse := .idle } := by
  simp only [exec, execResetPulseExpiry, runEvent, Ev.start_pulse, h]
  rfl

/-- With no pulse ACTIVE the expiry has no effect (log 3). -/
theorem exec_resetPulseExpiry_idle (s : State) (h : ∀ d, s.pulse ≠ .active d) :
    exec .resetPulseExpiry s = .next s := by
  simp only [exec, execResetPulseExpiry, runEvent, Ev.start_pulse]
  cases hp : s.pulse with
  | active d => exact absurd hp (h d)
  | idle | armed => rfl

/-- Settles O55: the source that decides is found for each priority, the forces named by the model's own flags. -/
theorem linesFollowTheirPriority : Obligations.LinesFollowTheirPriority := by
  intro s l pulse dark shedBy
  have hpulse : s.pulsed l ↔ pulse := and_congr Iff.rfl s.pulseActive_iff
  have hdark : s.darkened l ↔ dark := and_congr s.darkHold_iff Iff.rfl
  have hshed (k : Fin 4) : s.shedBy l k ↔ shedBy k := and_congr s.tiers[k].holds.any_iff Iff.rfl
  simp only [← hpulse, ← hdark, ← hshed, State.driven]
  refine ⟨fun h => ?_, fun hp h => ?_, fun k hp hd h hlow => ?_, fun hp hd h => ?_,
    fun ⟨_, h⟩ => exec_resetPulseExpiry_ends s h, exec_resetPulseExpiry_idle s⟩
  · rw [State.lineSource_pulsed h]
  · rw [State.lineSource_darkened hp h]
  · rw [State.lineSource_shed hp hd h hlow]
  · rw [State.lineSource_plan hp hd h]

end Sys2Proof.Machine

namespace Sys2Proof.Machine

/-! ### RESET_BOARD -/

/-- RESET_BOARD may arm the pulse in BOARD_ON and PANEL_ON with the engine idle (R76). -/
theorem State.resetAllowed_iff (s : State) :
    s.resetAllowed = true ↔ (s.sys = .boardOn ∨ s.sys = .panelOn) ∧ s.run = none := by
  simp [State.resetAllowed, State.engineIdle]

section
variable (e : Ev)

/-- A pulse ARMED or ACTIVE: BUSY (R76). -/
theorem Ev.serveResetBoard_busy (h : e.pulse ≠ .idle) : e.serveResetBoard [] = e.refuse .busy := by
  simp only [Ev.serveResetBoard, ne_eq, not_true_eq_false, if_false, if_pos h]

/-- A state that forbids the pulse, or a plan in hand: WRONG_STATE (R76). -/
theorem Ev.serveResetBoard_wrongState (h : e.pulse = .idle) (ha : ¬ e.resetAllowed = true) :
    e.serveResetBoard [] = e.refuse .wrongState := by
  simp only [Ev.serveResetBoard, ne_eq, h, not_true_eq_false, if_false, if_neg ha]

/-- Otherwise the pulse is armed (R76). -/
theorem Ev.serveResetBoard_arms (h : e.pulse = .idle) (ha : e.resetAllowed = true) :
    e.serveResetBoard [] = { ev := { e with pulse := .armed }, status := .ok, body := [] } := by
  simp only [Ev.serveResetBoard, ne_eq, h, not_true_eq_false, if_false, if_pos ha]

end

/-- Settles O35: one lemma for each row of R76 behind the body check. -/
theorem resetBoardArmsThePulse : Obligations.ResetBoardArmsThePulse := by
  intro s tag hready hs
  have hreply {r : Served} (h : (Ev.start s).serveResetBoard [] = r) :
      exec (.resetBoard tag []) s = .next (r.ev.finish.replied ⟨0x0E, tag, []⟩ r.status r.body) :=
    request_dispatched 0x0E tag [] s hready hs h
  refine ⟨fun h => ?_, fun h hno => ?_, fun h hsys hrun => ?_⟩
  · exact hreply (Ev.serveResetBoard_busy _ h)
  · refine hreply (Ev.serveResetBoard_wrongState _ h fun ha => ?_)
    obtain ⟨hsys, hrun⟩ := s.resetAllowed_iff.1 ha
    obtain ⟨hb, hp⟩ | hbusy := hno
    · exact hsys.elim hb hp
    · exact hbusy hrun
  · exact hreply (Ev.serveResetBoard_arms _ h (s.resetAllowed_iff.2 ⟨hsys, hrun⟩))

end Sys2Proof.Machine

namespace Sys2Proof.Machine

/-! ### Requests that read and clear -/

/-- READ_MEASURE with its clear option sets back the statistics of the record that it answers with (R95, R96). -/
theorem Ev.serveReadMeasure_clears (e : Ev) (i : Fin 15) :
    e.serveReadMeasure [BitVec.ofNat 8 i.val, 1]
      = { ev := { e with scan.records := e.scan.records.set i e.scan.records[i].resetStats }
          status := .ok
          body := e.measureRecord i } := by
  have hargs : measureArgs [BitVec.ofNat 8 i.val, 1] = some (i, true) := by simp [measureArgs, named, noYes]
  simp only [Ev.serveReadMeasure, hargs, if_true]

/-- Settles O21: what each owner serves for its clearing body, READ_MEASURE's argument read by its own lemma. -/
theorem clearingReadsClearAfterTheReply : Obligations.ClearingReadsClearAfterTheReply := by
  intro s tag hready hs
  refine ⟨fun i => ?_, ?_, ?_⟩
  · exact request_dispatched 0x07 tag [BitVec.ofNat 8 i.val, 1] s hready hs (Ev.serveReadMeasure_clears (Ev.start s) i)
  · exact request_dispatched 0x08 tag [1] s hready hs rfl
  · exact request_dispatched 0x12 tag [] s hready hs rfl

end Sys2Proof.Machine

namespace Sys2Proof.Machine

/-! ### The end of a pin reset -/

/-- The records of the scanner at reset (R98): the temperature of code 0 in input 2, 0 in the others. -/
theorem Scanner.reset_records (now : Nat) (i : Fin 15) :
    (Scanner.reset now).records[i] = ChanRec.reset (if i = 2 then -400 else 0) := by
  by_cases h : i = 2
  · subst h
    simp [Scanner.reset]
  · have hval : 2 ≠ i.val := fun hi => h (Fin.ext hi.symm)
    simp [Scanner.reset, h, hval]

/-- Settles O11: the scanner that a pin reset's end starts is that of `Scanner.reset`. -/
theorem endOfPinResetStartsScannerAndCheck : Obligations.EndOfPinResetStartsScannerAndCheck := by
  intro s
  refine ⟨fun h => ⟨{ s with pins.inReset := false, scan := Scanner.reset s.now, store.checking := true }, if_pos h,
    rfl, rfl, rfl, rfl, rfl, rfl, Scanner.reset_records s.now⟩, fun h => if_neg ?_⟩
  rw [h]
  exact Bool.false_ne_true

end Sys2Proof.Machine

namespace Sys2Proof.Machine

/-! ### The sample period -/

/-- What an event's operation makes of its beginning is what its end finishes. -/
theorem runEvent_eq {f : Ev → Ev} {s : State} {e : Ev} (h : f (Ev.start s) = e) : runEvent f s = .next e.finish :=
  congrArg (fun x : Ev => Host.Outcome.next x.finish) h

/-- An operation that leaves the beginning of its event as it is has no effect (log 3, log 4). -/
theorem runEvent_start {f : Ev → Ev} {s : State} (h : f (Ev.start s) = Ev.start s) : runEvent f s = .next s :=
  runEvent_eq h

/-- The inputs of the third conversion are the temperature and the rails (R88, R91). -/
theorem State.scale_slow (s : State) {i : Fin 15} (hi : 2 ≤ i.val) (n : Nat) :
    s.scale i n = if i = 2 then ((n * 1650 / 4096 : Nat) : Int) - 400
      else (n * (s.railCfg (inputRail i)).fullscaleMV / 4096 : Nat) := by
  split
  case isTrue h => subst h; rfl
  case isFalse h =>
    have hne : i.val ≠ 2 := fun hi => h (Fin.ext hi)
    exact s.scale_rail (by omega) n

/-- The state with a code in the record of its input (R92). -/
def State.recorded (s : State) (i : Fin 15) (n : Nat) : State :=
  { s with scan.records := s.scan.records.set i (s.scan.records[i].after n (s.scale i n)) }

/-- A completion writes its input's record and nothing else (R92). -/
theorem Ev.recordCode_start (s : State) (i : Fin 15) (n : Nat) :
    (Ev.start s).recordCode i n = Ev.start (s.recorded i n) := by
  rw [Ev.recordCode, ChanRec.update_eq]
  rfl

/-- Behind the evaluation itself its consumers leave the budget and the scanner alone (R93, R100, R105). -/
theorem Ev.evaluationEvent_frame {p : Rail → Prop} (e : Ev) (vb ib : Nat) :
    (e.evaluation vb ib).Keeps p (e.evaluationEvent vb ib) :=
  ((Ev.rideEvaluation_frame _ _).trans (Ev.settle_frame _)).trans (Ev.limitEvaluation_frame _ _)

/-- The state behind the second conversion, before its evaluation (R92, R93, log 36). -/
def State.currentRead (s : State) (n : Nat) : State := { s.recorded 1 n with scan.conv := some .slow, scan.vb := none }

/-- The second conversion is recorded, and with the code held of the first it makes one evaluation (R93). -/
theorem exec_busCurrentConversion (s : State) (code : Code) (h : s.scan.conv = some .busCurrent) :
    let e := Ev.start (s.currentRead code.toNat)
    exec (.busCurrentConversion code) s = .next
      (s.scan.vb.elim e fun vb => e.evaluationEvent vb code.toNat).finish := by
  refine runEvent_eq ((if_pos h).trans ?_)
  rw [Ev.recordCode_start, Ev.start_scan]
  cases s.scan.vb <;> rfl

/-- The second conversion in the scanner and the budget: the consumers of its evaluation touch neither (R92, R93). -/
theorem exec_busCurrentConversion_scan_bud (s : State) (code : Code) (h : s.scan.conv = some .busCurrent) :
    ∃ t, exec (.busCurrentConversion code) s = .next t ∧ t.scan = (s.currentRead code.toNat).scan
      ∧ t.bud = { s.bud with
          record := s.scan.vb.elim s.bud.record fun vb =>
            evaluate s.cfg.budget s.bud.eReserve vb code.toNat s.bud.record.count } := by
  refine ⟨_, exec_busCurrentConversion s code h, ?_⟩
  cases s.scan.vb with
  | none => exact ⟨rfl, rfl⟩
  | some vb =>
    have hkeep := (Ev.start (s.currentRead code.toNat)).evaluationEvent_frame (p := fun _ => True) vb code.toNat
    exact ⟨hkeep.scan, hkeep.bud⟩

/-- The state behind the third conversion, before its consumer (R90, R92). -/
def State.slowRead (s : State) (n : Nat) : State :=
  { s.recorded s.scan.pointer n with scan.conv := none, scan.pointer := nextPointer s.scan.pointer }

/-- The third conversion is recorded and handed to its input's consumer (R92, R94). -/
theorem exec_slowConversion (s : State) (code : Code) (h : s.scan.conv = some .slow) :
    exec (.slowConversion code) s = .next ((Ev.start (s.slowRead code.toNat)).slowCompletion s.scan.pointer
      (s.scale s.scan.pointer code.toNat)).finish := by
  refine runEvent_eq ((if_pos h).trans ?_)
  simp only [Ev.recordCode_start, Ev.start_scan]
  rfl

/-- The third conversion in the scanner and the budget: its consumer touches neither (R90, R92, R94). -/
theorem exec_slowConversion_scan_bud (s : State) (code : Code) (h : s.scan.conv = some .slow) :
    ∃ t, exec (.slowConversion code) s = .next t ∧ t.bud = s.bud ∧ t.scan = (s.slowRead code.toNat).scan := by
  have hkeep := (Ev.start (s.slowRead code.toNat)).slowCompletion_frame (p := fun _ => True) s.scan.pointer
    (s.scale s.scan.pointer code.toNat)
  exact ⟨_, exec_slowConversion s code h, hkeep.bud, hkeep.scan⟩

/-- Settles O56: the completions that reach a consumer by its frame, the other commands by their own effect. -/
theorem scannerRunsItsPeriod : Obligations.ScannerRunsItsPeriod := by
  intro s code n
  refine ⟨fun h => ?_, fun h => ?_, fun h => ?_, fun h => ?_, fun h => ?_, fun h => ?_, fun h => ?_,
    fun i h hp hi => ?_⟩
  · exact runEvent_start (if_neg (by rw [Ev.start_scan, h]; nofun))
  · exact runEvent_eq (if_pos (Option.isSome_iff_ne_none.2 h))
  · exact runEvent_start (if_neg h)
  · refine (runEvent_eq (if_pos h)).trans ?_
    rw [Ev.recordCode_start]
    rfl
  · exact runEvent_start (if_neg h)
  · obtain ⟨t, hexec, hscan, hbud⟩ := exec_busCurrentConversion_scan_bud s code h
    refine ⟨t, hexec, hscan, hbud.trans ?_⟩
    cases s.scan.vb <;> rfl
  · exact runEvent_start (if_neg h)
  · subst hp
    rw [← s.scale_slow hi]
    exact exec_slowConversion_scan_bud s code h

end Sys2Proof.Machine

namespace Sys2Proof.Machine

/-! ### The budget after a reset -/

/-- Settles O8: either part reset leaves the blank tables and the budget of `Budget.reset`, and holds no bus voltage. -/
theorem budgetAfterReset : Obligations.BudgetAfterReset := by
  rintro c s (rfl | rfl) <;> exact ⟨_, rfl, rfl, rfl, rfl, rfl, rfl, rfl⟩

/-! ### The figures of an evaluation -/

/-- What the ranges of R99 say of the budget's parameters. -/
theorem BudgetCfg.ok_ranges {b : BudgetCfg} (h : b.ok = true) :
    b.busCap ≤ 6500 ∧ 500 ≤ b.floor ∧ 100 ≤ b.pFloor ∧ b.pFloor ≤ 50000 := by
  simp only [BudgetCfg.ok, inRange, Bool.and_eq_true, decide_eq_true_eq] at h
  omega

/-- Above the floor D is the difference of the squares (R101). -/
theorem budgetD_above {vb f : Nat} (h : f < vb) : (budgetD vb f : Int) = (vb : Int) ^ 2 - (f : Int) ^ 2 := by
  rw [budgetD, if_pos h, Nat.cast_sub (Nat.mul_le_mul h.le h.le), sq, sq, Nat.cast_mul, Nat.cast_mul]

/-- At or below the floor D is 0 (R101). -/
theorem budgetD_below {vb f : Nat} (h : vb ≤ f) : budgetD vb f = 0 := if_neg (Nat.not_lt.2 h)

/-- At or below the floor nothing is available, whatever the capacitance (R101). -/
theorem eAvail_below (c : Nat) {vb f : Nat} (h : vb ≤ f) : eAvail c vb f = 0 := by
  simp [eAvail, budgetD_below h]

/-- The largest D: the largest code with the lowest floor (R101). -/
theorem budgetD_le {vb f : Nat} (hvb : vb ≤ 4095) (hf : 500 ≤ f) : budgetD vb f ≤ 16519025 := by
  have h1 : vb * vb ≤ 4095 * 4095 := Nat.mul_le_mul hvb hvb
  have h2 : 500 * 500 ≤ f * f := Nat.mul_le_mul hf hf
  unfold budgetD
  split <;> omega

/-- The largest E_avail: the largest capacitance with the largest D (R101). -/
theorem eAvail_le {c vb f : Nat} (hc : c ≤ 6500) (hvb : vb ≤ 4095) (hf : 500 ≤ f) : eAvail c vb f ≤ 53686 :=
  calc eAvail c vb f ≤ 6500 * 16519025 / 2000000 := Nat.div_le_div_right (Nat.mul_le_mul hc (budgetD_le hvb hf))
    _ = 53686 := by norm_num

/-- The largest P_meas (R102). -/
theorem pMeas_le {vb ib : Nat} (hvb : vb ≤ 4095) (hib : ib ≤ 4095) : pMeas vb ib ≤ 335380 :=
  calc pMeas vb ib ≤ 4095 * 4095 / 50 := Nat.div_le_div_right (Nat.mul_le_mul hvb hib)
    _ = 335380 := by norm_num

/-- P_now is the larger of P_meas and its floor (R102). -/
theorem pNow_eq_max (pm pFloor : Nat) : pNow pm pFloor = max pFloor pm := (max_def _ _).symm

/-- Settles O57. -/
theorem budgetEnergyAndPower : Obligations.BudgetEnergyAndPower := by
  intro b er vb ib n hok hvb hib d r
  obtain ⟨hcap, hfloor, hmin, -⟩ := BudgetCfg.ok_ranges hok
  have hnow : r.pNow = max b.pFloor r.pMeas := pNow_eq_max _ _
  exact ⟨budgetD_above, fun h => ⟨budgetD_below h, eAvail_below _ h⟩, budgetD_le hvb hfloor, rfl, rfl,
    eAvail_le hcap hvb hfloor, rfl, rfl, pMeas_le hvb hib, rfl, fun h => by omega, fun h => by omega, by omega,
    by omega⟩

/-! ### Headroom, commit time and reserve -/

/-- Without headroom there is no time to a commit (R103). -/
theorem tCommit_low {h : Int} (p : Nat) (hh : h ≤ 0) : tCommit h p = 0 := if_pos hh

/-- t_commit stays within two bytes (R103). -/
theorem tCommit_le (h : Int) (p : Nat) : tCommit h p ≤ 65535 := by
  unfold tCommit
  split <;> omega

/-- With headroom t_commit is the longest time in ms, within two bytes, whose energy at P_now it covers (R103). -/
theorem le_tCommit_iff {h : Int} {p : Nat} (hh : 0 < h) (hp : 0 < p) (ms : Nat) :
    ms ≤ tCommit h p ↔ ms ≤ 65535 ∧ (ms * p : Int) ≤ h * 1000 := by
  obtain ⟨k, rfl⟩ := Int.eq_ofNat_of_zero_le hh.le
  rw [tCommit, if_neg (Int.not_le.2 hh), le_min_iff, Nat.le_div_iff_mul_le hp, Int.toNat_natCast]
  norm_cast

/-- The time a snap step is reckoned with, by its kind; a target byte beyond the rails drains for the blank-table time
(R47, R106). -/
theorem stepMs_eq (t : Tables) (c : StepRec) :
    stepMs t c = match c.kind with
      | .wait | .handshake => c.value
      | .railOff => if h : c.target < 12 then t.rails[c.target].drainMs else blankRail.drainMs
      | .line | .railOn | .awaitLock => 0 := by
  cases hk : c.kind
  case railOff =>
    simp only [stepMs, hk]
    split <;> simp_all
  all_goals simp only [stepMs, hk]

/-- The steps of a plan up to its step count, by their numbers (R46). -/
theorem PlanCfg.steps_take (c : PlanCfg) :
    c.steps.toList.take c.stepCount = (List.range c.stepCount).map fun i => c.step (i + 1) := by
  have hn : c.stepCount.val ≤ 16 := by omega
  refine List.ext_getElem (by simp [hn]) fun i h1 h2 => ?_
  have hi : i < 16 := by simp at h2; omega
  simp [PlanCfg.step, hi]

/-- The part of the reserve a plan contributes: a sum over its steps (R106). -/
theorem reservePart_eq (t : Tables) (p : PlanId) :
    reservePart t p = ((List.range (t.plan p).stepCount).map fun i =>
      ((t.plan p).step (i + 1)).weightMW * stepMs t ((t.plan p).step (i + 1))).sum := by
  simp only [reservePart, PlanCfg.steps_take, List.map_map]
  congr 2
  funext i
  exact Nat.mul_comm _ _

/-- Settles O58. -/
theorem headroomAndReserve : Obligations.HeadroomAndReserve := by
  refine ⟨fun b er vb ib n hok hvb hib her => ?_, fun t p => ?_, fun guard a b => ?_⟩
  · intro r
    obtain ⟨hcap, hfloor, hmin, -⟩ := BudgetCfg.ok_ranges hok
    have hh : r.h = (r.eAvail : Int) - (er : Int) := rfl
    have hea : r.eAvail ≤ 53686 := eAvail_le hcap hvb hfloor
    have hnow : r.pNow = max b.pFloor r.pMeas := pNow_eq_max _ _
    refine ⟨hh, by omega, by omega, fun hlow => ?_, tCommit_low _, tCommit_le _ _,
      fun hpos => le_tCommit_iff hpos (show 0 < r.pNow by omega), rfl, rfl, rfl, rfl⟩
    have hzero : r.eAvail = 0 := eAvail_below _ hlow
    omega
  · refine (reservePart_eq t p).trans (congrArg List.sum (List.map_congr_left fun i _ => ?_))
    exact congrArg _ (stepMs_eq t _)
  · refine ⟨(a + b + 999) / 1000, rfl, ?_, ?_⟩ <;> omega

end Sys2Proof.Machine

namespace Sys2Proof.Machine

/-! ### Edits and the reserve -/

/-- The field groups whose edit recomputes the reserve (R107). -/
def Group.reachesReserve : Group → Bool
  | .timing _ | .budget => true
  | .header p | .step p _ => p.isSnap
  | .sense _ | .policy _ | .tier _ | .line _ | .wake _ | .ride | .limit | .thermal | .lock | .system => false

/-- Two tables that agree in all the reserve is reckoned from (R106): the guard, both snap plans, the drain times. -/
structure Tables.ReserveAs (u t : Tables) : Prop where
  budget : u.budget = t.budget
  panel : u.plan .panelSnap = t.plan .panelSnap
  board : u.plan .boardSnap = t.plan .boardSnap
  drain : ∀ r : Rail, u.rails[r].drainMs = t.rails[r].drainMs

/-- Tables agree with themselves. -/
theorem Tables.ReserveAs.refl (t : Tables) : t.ReserveAs t := ⟨rfl, rfl, rfl, fun _ => rfl⟩

/-- A plan's part is reckoned from its steps and the drain times (R106). -/
theorem reservePart_congr {t u : Tables} {p : PlanId} (hplan : u.plan p = t.plan p)
    (hdrain : ∀ r : Rail, u.rails[r].drainMs = t.rails[r].drainMs) : reservePart u p = reservePart t p := by
  have hms (c : StepRec) : stepMs u c = stepMs t c := by
    have hrail (h : c.target < 12) : u.rails[c.target].drainMs = t.rails[c.target].drainMs := hdrain ⟨c.target, h⟩
    simp only [stepMs_eq, hrail]
  simp only [reservePart, hplan, hms]

/-- What passes a check is what was checked (R174). -/
theorem checked_eq_some {α : Type} {ok : α → Bool} {x : Option α} {a : α} (h : checked ok x = some a) : x = some a := by
  cases x with
  | none => exact absurd h nofun
  | some b =>
    simp only [checked, Option.bind_some] at h
    split at h
    · exact h
    · exact absurd h nofun

/-- What a checked field group writes, it writes from the value checked. -/
theorem map_checked_eq_some {α β : Type} {ok : α → Bool} {x : Option α} {f : α → β} {b : β}
    (h : (checked ok x).map f = some b) : ∃ a, x = some a ∧ f a = b := by
  obtain ⟨a, ha, hb⟩ := Option.map_eq_some_iff.1 h
  exact ⟨a, checked_eq_some ha, hb⟩

/-- An edit of RAIL SENSE leaves the drain time. -/
theorem RailCfg.ofSense_drainMs {x y : RailCfg} {body : List Byte} (h : x.ofSense body = some y) :
    y.drainMs = x.drainMs := by
  unfold RailCfg.ofSense at h
  split at h
  · simp only [Option.bind_eq_bind, Option.bind_eq_some_iff, Option.pure_def, Option.some.injEq] at h
    obtain ⟨_, _, _, _, rfl⟩ := h
    rfl
  · exact absurd h nofun

/-- An edit of RAIL POLICY leaves the drain time. -/
theorem RailCfg.ofPolicy_drainMs {x y : RailCfg} {body : List Byte} (h : x.ofPolicy body = some y) :
    y.drainMs = x.drainMs := by
  unfold RailCfg.ofPolicy at h
  split at h
  · simp only [Option.bind_eq_bind, Option.bind_eq_some_iff, Option.pure_def, Option.some.injEq] at h
    obtain ⟨_, _, _, _, _, _, _, _, rfl⟩ := h
    rfl
  · exact absurd h nofun

/-- A rail's record replaced by one of the same drain time. -/
theorem Tables.setRail_reserveAs (t : Tables) (r : Rail) {x : RailCfg} (h : x.drainMs = t.rails[r].drainMs) :
    (t.setRail r x).ReserveAs t where
  budget := rfl
  panel := rfl
  board := rfl
  drain r' := by
    by_cases hr : r = r'
    · subst hr
      simpa [Tables.setRail] using h
    · have hne : r.val ≠ r'.val := fun hv => hr (Fin.ext hv)
      simp [Tables.setRail, hne]

/-- The snap plans stand at indices 4 and 5 (R45). -/
theorem PlanId.idx_of_not_snap {p : PlanId} (h : p.isSnap = false) : p.idx.val ≠ 4 ∧ p.idx.val ≠ 5 := by
  cases p <;> simp_all [PlanId.isSnap, PlanId.idx]

/-- A plan replaced that is no snap plan. -/
theorem Tables.setPlan_reserveAs (t : Tables) {p : PlanId} (x : PlanCfg) (h : p.isSnap = false) :
    (t.setPlan p x).ReserveAs t := by
  obtain ⟨hpanel, hboard⟩ := PlanId.idx_of_not_snap h
  refine ⟨rfl, ?_, ?_, fun _ => rfl⟩
  · exact Vector.getElem_set_ne p.idx.isLt (by decide) hpanel
  · exact Vector.getElem_set_ne p.idx.isLt (by decide) hboard

/-- An edit of a group that does not reach the reserve leaves all the reserve is reckoned from (R107, R174). -/
theorem Tables.edited_reserveAs {t u : Tables} {g : Group} {body : List Byte} (hg : g.reachesReserve = false)
    (h : t.edited g body = some u) : u.ReserveAs t := by
  have hsame {v : Tables} (h1 : v.budget = t.budget) (h2 : v.plans = t.plans) (h3 : v.rails = t.rails) :
      v.ReserveAs t :=
    ⟨h1, by simp only [Tables.plan, h2], by simp only [Tables.plan, h2], fun r => by rw [h3]⟩
  cases g with
  | timing | budget => exact absurd hg nofun
  | sense r =>
    obtain ⟨x, hx, rfl⟩ := map_checked_eq_some h
    exact t.setRail_reserveAs r (RailCfg.ofSense_drainMs hx)
  | policy r =>
    obtain ⟨x, hx, rfl⟩ := map_checked_eq_some h
    exact t.setRail_reserveAs r (RailCfg.ofPolicy_drainMs hx)
  | header p | step p =>
    obtain ⟨x, _, rfl⟩ := map_checked_eq_some h
    exact t.setPlan_reserveAs _ hg
  | line l =>
    simp only [Tables.edited] at h
    split at h
    · exact absurd h nofun
    · obtain ⟨x, _, rfl⟩ := Option.map_eq_some_iff.1 h
      exact hsame rfl rfl rfl
  | tier | wake | ride | limit | thermal | lock | system =>
    obtain ⟨x, _, rfl⟩ := map_checked_eq_some h
    exact hsame rfl rfl rfl

/-- The reserve is a matter of the budget and the working tables alone. -/
theorem State.reserveMatches.congr {s t : State} (h : s.reserveMatches) (hbud : t.bud = s.bud)
    (htab : t.tables.ReserveAs s.tables) : t.reserveMatches := by
  obtain ⟨hpanel, hboard, hsum⟩ := h
  simp only [State.reserveMatches, hbud, htab.budget, reservePart_congr htab.panel htab.drain,
    reservePart_congr htab.board htab.drain]
  exact ⟨hpanel, hboard, hsum⟩

/-- What every operation of a block or of the engine leaves alone, the reserve among it. -/
theorem Ev.Keeps.reserveMatches {p : Rail → Prop} {e e' : Ev} (h : e.Keeps p e') (hres : e.reserveMatches) :
    e'.reserveMatches :=
  hres.congr h.bud (h.tables ▸ .refl _)

/-- The effects of an edit that reaches the reserve: it is recomputed (R107). -/
theorem Ev.editEffects_recomputes (e : Ev) {g : Group} (old new : Tables) (h : g.reachesReserve = true) :
    e.editEffects g old new = e.recomputeReserve := by
  cases g with
  | timing | budget => rfl
  | header p | step p => exact if_pos h
  | sense | policy | tier | line | wake | ride | limit | thermal | lock | system => exact absurd h nofun

/-- The effects of any other edit leave the budget and the tables alone (R43, R143, R146). -/
theorem Ev.editEffects_frame {p : Rail → Prop} (e : Ev) {g : Group} (old new : Tables)
    (h : g.reachesReserve = false) : e.Keeps p (e.editEffects g old new) := by
  cases g with
  | timing | budget => exact absurd h nofun
  | header q | step q =>
    have hq : ¬ q.isSnap = true := Bool.eq_false_iff.1 h
    simp only [Ev.editEffects, if_neg hq]
    exact .refl
  | sense r => exact e.senseEdited_frame _ _ _
  | policy r => exact e.policyEdited_frame _ _ _
  | limit => exact e.limitEdited_frame _ _
  | thermal =>
    simp only [Ev.editEffects]
    split
    · exact .refl
    · exact e.heatTierEdited_frame _
  | tier | line | wake | ride | lock | system => exact .refl

/-- An accepted edit keeps the reserve that of the working tables, outside UNCONFIGURED (R107). -/
theorem Ev.applyEdit_reserveMatches (e : Ev) {g : Group} {body : List Byte} {new : Tables}
    (hs : e.sys ≠ .unconfigured) (hres : e.reserveMatches) (h : e.tables.edited g body = some new) :
    (e.applyEdit g new).reserveMatches := by
  let e1 : Ev := { e with tables := new }
  have heffects : (e1.editEffects g e.tables new).reserveMatches := by
    cases hg : g.reachesReserve with
    | true =>
      rw [Ev.editEffects_recomputes e1 _ _ hg]
      exact e1.recomputeReserve_matches
    | false =>
      have he1 : e1.reserveMatches := hres.congr rfl (Tables.edited_reserveAs hg h)
      exact (e1.editEffects_frame (p := fun _ => True) _ _ hg).reserveMatches he1
  rw [Ev.applyEdit, if_neg hs]
  exact (Ev.settle_frame (p := fun _ => True) _).reserveMatches heffects

/-- An edit that is accepted leaves the tables it was read into (R174). -/
theorem State.editCheck_ok {s : State} {g : Group} {body : List Byte} {new : Tables}
    (h : s.editCheck g body = (.ok, new)) : s.tables.edited g body = some new := by
  unfold State.editCheck at h
  split at h
  · exact absurd h nofun
  · rename_i u hu
    rw [hu]
    repeat' split at h
    all_goals simp_all

/-- EDIT_CONFIG, accepted or refused, keeps the reserve that of the working tables (R107). -/
theorem Ev.serveEditConfig_reserveMatches (e : Ev) (body : List Byte) (hs : e.sys ≠ .unconfigured)
    (hres : e.reserveMatches) : (e.serveEditConfig body).ev.reserveMatches := by
  unfold Ev.serveEditConfig
  split
  · exact hres
  · split
    · rename_i hok
      exact e.applyEdit_reserveMatches hs hres (State.editCheck_ok hok)
    · exact hres

/-- Settles O41: the frame is taken, held back or lost; taken, it is EDIT_CONFIG's to serve. -/
theorem editKeepsTheReserve : Obligations.EditKeepsTheReserve := by
  intro s t tag body hstart hunc hres hexec
  let f : Frame := ⟨0x10, tag, body⟩
  have htake : ((Ev.start s).take f).reserveMatches := by
    have hserved : ((Ev.start s).served f).ev.reserveMatches := by
      rw [Ev.served_started _ f hstart]
      exact (Ev.start s).serveEditConfig_reserveMatches body hunc hres
    exact hserved
  have hwhole : (if (Ev.start s).pins.inReset then Ev.start s else (Ev.start s).frameArrives f).reserveMatches := by
    unfold Ev.frameArrives
    split
    · exact hres
    · split
      · exact htake
      · split <;> exact hres
  obtain rfl := next_inj hexec
  exact hwhole

end Sys2Proof.Machine

namespace Sys2Proof.Machine

/-! ### Events that mark nothing -/

/-- Nothing is left to serve: no answer, no change of the target, no trigger of the arbiter, no fault action. -/
structure Ev.Quiet (e : Ev) : Prop where
  ans : e.ans = none
  tgtChanged : e.tgtChanged = false
  arb : e.arb = false
  act : e.act = none

/-- The beginning of an event marks nothing. -/
theorem Ev.Quiet.start (s : State) : (Ev.start s).Quiet := ⟨rfl, rfl, rfl, rfl⟩

/-- With nothing marked the steps, the target and the arbiter have nothing to do. -/
theorem Ev.Quiet.serve {e : Ev} (h : e.Quiet) : e.serve = e := by
  simp [Ev.serve, Ev.runSteps_quiet _ e h.ans, h.tgtChanged, h.arb]

/-- Neither has a fault action. -/
theorem Ev.Quiet.settle {e : Ev} (h : e.Quiet) : e.settle = e := e.settle_quiet h.ans h.tgtChanged h.arb h.act

/-! ### RIDE holds on tiers whose rail members stay as they are -/

/-- A shed request to a rail that neither runs nor drains finds nothing to do (R41). -/
theorem Ev.shedRequest_aside (e : Ev) {r : Rail}
    (h : e.rails[r].state = .off ∨ e.rails[r].state = .faulted ∨ e.rails[r].state = .retryWait) :
    e.shedRequest r = e := by
  obtain h | h | h := h <;> simp only [Ev.shedRequest, h]

/-- Shed requests to such rails alone. -/
theorem Ev.shedRequests_aside (l : List Rail) (e : Ev)
    (h : ∀ r ∈ l, e.rails[r].state = .off ∨ e.rails[r].state = .faulted ∨ e.rails[r].state = .retryWait) :
    l.foldl Ev.shedRequest e = e := by
  induction l with
  | nil => rfl
  | cons r l ih =>
    rw [List.foldl_cons, e.shedRequest_aside (h r List.mem_cons_self)]
    exact ih fun r' hr' => h r' (List.mem_cons_of_mem _ hr')

/-- A RIDE hold on a tier without one: the hold set takes it, and the shed count rises if the set was empty (R133). -/
theorem Ev.placeHold_ride (e : Ev) {k : Fin 4} (hm : e.membersAside k) (hk : e.tiers[k].holds.ride = false) :
    e.placeHold .ride k = e.upd (e.held k { e.tiers[k].holds with ride := true }) e.ans := by
  have hhas : ¬ e.tiers[k].holds.has .ride = true := Bool.eq_false_iff.1 hk
  have hany : HoldSet.any { e.tiers[k].holds with ride := true } = true := by simp [HoldSet.any]
  unfold Ev.placeHold
  rw [if_neg hhas]
  by_cases hshed : e.tierShed k = true
  · have hset : e.tiers[k].holds.any = true := hshed
    refine (if_pos hshed).trans ?_
    simp only [State.held, hset, Bool.true_eq_false, false_and, if_false]
    rfl
  · have hset : e.tiers[k].holds.any = false := Bool.eq_false_iff.2 hshed
    let e2 : Ev := (e.setTier k fun x => { x with holds := x.holds.put .ride true }).setTier k fun x =>
      { x with shedCount := satInc 65535 x.shedCount }
    refine (if_neg hshed).trans ((Ev.shedRequests_aside (e2.members k) e2 hm).trans ?_)
    simp only [State.held, hset, hany, and_self, if_true]
    simp [e2, Ev.setTier, Ev.upd, HoldSet.put]

/-- A tier's record once its threshold has been held against t_commit, which lies below it where `low` is true (R117,
step 1). -/
def TierRt.ridden (x : TierRt) (low : Bool) : TierRt :=
  { holds := { x.holds with ride := x.holds.ride || low }
    shedCount :=
      if x.holds.any = false ∧ (x.holds.ride || low) = true then satInc 65535 x.shedCount else x.shedCount }

/-- A tier that holds RIDE, or whose threshold is not above t_commit, stays as it is. -/
theorem TierRt.ridden_same (x : TierRt) {low : Bool} (h : x.holds.ride = true ∨ low = false) : x.ridden low = x := by
  obtain ⟨⟨ride, limit, heat, host⟩, n⟩ := x
  obtain h | rfl := h
  · obtain rfl : ride = true := h
    rfl
  · cases ride <;> simp [TierRt.ridden, HoldSet.any]

/-- The record of tier `k` after its turn in an evaluation in RIDING. -/
def State.rideTier (s : State) (k : Fin 4) : TierRt :=
  s.tiers[k].ridden (decide (s.bud.record.tCommit < s.cfg.ride.thresholds[k]))

/-- The threshold of one tier at an evaluation in RIDING (R117). -/
theorem Ev.rideHold_aside (e : Ev) {k : Fin 4} (hq : e.Quiet) (hm : e.membersAside k) :
    e.rideHold k = { e with tiers := e.tiers.set k (e.rideTier k) } := by
  generalize hlow : decide (e.bud.record.tCommit < e.cfg.ride.thresholds[k]) = low
  have htier : e.rideTier k = e.tiers[k].ridden low := congrArg _ hlow
  cases hturn : !e.tiers[k].holds.ride && low with
  | true =>
    obtain ⟨hr, rfl⟩ : e.tiers[k].holds.ride = false ∧ low = true := by simpa using hturn
    let e1 : Ev := e.upd (e.held k { e.tiers[k].holds with ride := true }) e.ans
    have hq1 : e1.Quiet := ⟨hq.ans, hq.tgtChanged, hq.arb, hq.act⟩
    have hheld : (e.held k { e.tiers[k].holds with ride := true }).tiers = e.tiers.set k (e.rideTier k) := by
      rw [htier, TierRt.ridden, State.held]
      simp only [hr, HoldSet.any, Bool.true_or, Bool.or_true]
    rw [Ev.rideHold, hlow, if_pos hturn, e.placeHold_ride hm hr, hq1.serve, ← hheld]
    rfl
  | false =>
    have hsame : e.tiers[k].ridden low = e.tiers[k] := TierRt.ridden_same _ (by
      cases hr : e.tiers[k].holds.ride with
      | true => exact .inl rfl
      | false => exact .inr (by rwa [hr] at hturn))
    rw [Ev.rideHold, hlow, hturn, htier, hsame]
    simp

/-- The thresholds of several tiers, one after the other: each tier's record follows its own (R117). -/
theorem Ev.rideHolds_aside (l : List (Fin 4)) (e : Ev) (hl : l.Nodup) (hq : e.Quiet) (hm : ∀ k, e.membersAside k) :
    ∃ v : Vector TierRt 4, l.foldl Ev.rideHold e = { e with tiers := v }
      ∧ ∀ k : Fin 4, v[k] = if k ∈ l then e.rideTier k else e.tiers[k] := by
  induction l generalizing e with
  | nil => exact ⟨e.tiers, rfl, fun k => rfl⟩
  | cons j l ih =>
    obtain ⟨hj, hl⟩ := List.nodup_cons.1 hl
    let e1 : Ev := { e with tiers := e.tiers.set j (e.rideTier j) }
    have hget (k : Fin 4) : e1.tiers[k] = if k = j then e.rideTier j else e.tiers[k] := by
      by_cases h : k = j
      · subst h
        simp [e1]
      · have hne : j.val ≠ k.val := fun hv => h (Fin.ext hv.symm)
        simp [e1, h, hne]
    obtain ⟨v, hv, hvk⟩ := ih e1 hl ⟨hq.ans, hq.tgtChanged, hq.arb, hq.act⟩ hm
    refine ⟨v, ?_, fun k => ?_⟩
    · rw [List.foldl_cons, e.rideHold_aside hq (hm j)]
      exact hv
    · rw [hvk k]
      by_cases h : k = j
      · subst h
        rw [if_neg hj, if_pos List.mem_cons_self, hget, if_pos rfl]
      · have hstands : e1.rideTier k = e.rideTier k := by
          unfold State.rideTier
          rw [hget, if_neg h]
          rfl
        rw [hstands, hget, if_neg h]
        simp [h]

/-! ### The moves of ride-through at an evaluation -/

/-- Settling at an evaluation in RIDING: it stops below restore_level, and begins at it with AC_OK asserted (R119). -/
def State.settlingRide (s : State) (vb : Nat) : Ride :=
  if s.ride.settling then
    if vb < s.cfg.ride.restoreLevel then { s.ride with settling := false, settleTimer := none } else s.ride
  else if s.pins.acOk && decide (s.cfg.ride.restoreLevel ≤ vb) then
    { s.ride with settling := true, settleTimer := s.after s.cfg.ride.settleMs }
  else s.ride

section
variable (s : State) (vb : Nat)

/-- A bus at restore_level does not stop settling; without AC_OK, or below it, none begins (R119). -/
theorem State.settlingRide_stays
    (h : s.ride.settling = true ∧ s.cfg.ride.restoreLevel ≤ vb
      ∨ s.ride.settling = false ∧ (s.pins.acOk = false ∨ vb < s.cfg.ride.restoreLevel)) :
    s.settlingRide vb = s.ride := by
  obtain ⟨hs, hlow⟩ | ⟨hs, hac | hlow⟩ := h
  · rw [State.settlingRide, if_pos hs, if_neg (Nat.not_lt.2 hlow)]
  · simp [State.settlingRide, hs, hac]
  · simp [State.settlingRide, hs, hlow]

/-- Settling begins (R119). -/
theorem State.settlingRide_begins (hs : s.ride.settling = false) (hac : s.pins.acOk = true)
    (hlow : s.cfg.ride.restoreLevel ≤ vb) :
    s.settlingRide vb = { s.ride with settling := true, settleTimer := s.after s.cfg.ride.settleMs } := by
  simp [State.settlingRide, hs, hac, hlow]

/-- Settling stops (R119). -/
theorem State.settlingRide_stops (hs : s.ride.settling = true) (hlow : vb < s.cfg.ride.restoreLevel) :
    s.settlingRide vb = { s.ride with settling := false, settleTimer := none } := by
  rw [State.settlingRide, if_pos hs, if_pos hlow]

end

/-- With settle_ms above 0 settling touches the ride and the notices alone (R119, R125). -/
theorem Ev.settlingStep_eq (e : Ev) (vb : Nat) (h : 0 < e.cfg.ride.settleMs) :
    ∃ (q : List Notice) (dirty : Bool),
      e.settlingStep vb = { e with ride := e.settlingRide vb, notices := q, pwDirty := dirty } := by
  unfold Ev.settlingStep State.settlingRide
  by_cases hs : e.ride.settling = true
  · simp only [if_pos hs]
    split
    · exact ⟨_, _, if_pos hs⟩
    · exact ⟨e.notices, e.pwDirty, rfl⟩
  · simp only [if_neg hs]
    split
    · exact ⟨_, _, if_neg (Nat.ne_of_gt h)⟩
    · exact ⟨e.notices, e.pwDirty, rfl⟩

/-- The state a commit leaves before its snap requests are taken (R122, R128; fault source 0: log 34). -/
def State.committed (s : State) (rideLimit : Bool) : State :=
  { s with
    ride :=
      { s.ride with
        state := .committed, settling := false, limitTimer := none, settleTimer := none, slot := .none
        clock := .stopped (s.countedUs s.ride.clock)
        stats := { s.ride.stats with commits := satInc 65535 s.ride.stats.commits } }
    retVal := some s.target
    retArmed := false
    target := .standby
    shutdown :=
      { ShutdownRec.opened (commitCause rideLimit) with
        eAvail := s.bud.record.eAvail
        h := s.bud.record.h
        tiersHeld := #v[s.tiers[0].holds.ride, s.tiers[1].holds.ride, s.tiers[2].holds.ride, s.tiers[3].holds.ride]
        rideMs := min 65535 (s.countedUs s.ride.clock / 1000) } }

/-- What a commit does behind its target: the shutdown record opens with its figures, the commit is counted, POWER is
queued (R122). -/
def Ev.commitRecorded (e : Ev) (rideLimit : Bool) : Ev :=
  let e4 := e.openCommit (commitCause rideLimit) e.rideMs
  { e4 with ride.stats.commits := satInc 65535 e4.ride.stats.commits }.powerNotice

/-- A commit over an idle engine with a target other than STANDBY: PANEL_SNAP starts, here with a WAIT, and BOARD_SNAP
is pending behind it; STATE and POWER are queued (R2, R63, R122, R125). -/
theorem Ev.commit_starts (s : State) (rideLimit : Bool) {ms : Nat} (hrun : s.run = none) (hq : s.reqs = PendingSet.none)
    (hsup : s.sup = .inactive ∨ s.sup = .watching) (hw : s.opensWithWait .panelSnap ms) (ht : s.target ≠ .standby) :
    ∃ q : List Notice, (Ev.start s).commit rideLimit
      = { Ev.start ((s.committed rideLimit).snapsBegun (commitRequest rideLimit) ms) with
          notices := q, stDirty := true, pwDirty := true } := by
  let s2 : State := { (Ev.start s).enterCommitted.toState with retVal := some s.target, retArmed := false }
  let e3 : Ev := ({ Ev.start s2 with target := .standby, retArmed := false } : Ev).stateNotice
  let e5 : Ev := e3.commitRecorded rideLimit
  have hready : e5.snapReady ms := ⟨hrun, hq, hsup, .inr nofun, hw⟩
  have htold : ((Ev.start s2).writeTarget .standby).reportTarget = e3 := Ev.retarget_idle s2 .standby ht hrun
  have hcommit : (Ev.start s).commit rideLimit = (e5.snapBoth (commitRequest rideLimit)).takeSnaps :=
    congrArg (fun x : Ev => ((x.commitRecorded rideLimit).snapBoth (commitRequest rideLimit)).takeSnaps) htold
  refine ⟨e5.notices, ?_⟩
  rw [hcommit, e5.snapBoth_starts _ hready]
  rfl

/-- The thresholds of all tiers at an evaluation in RIDING, on tiers whose rail members stay as they are (R117). -/
theorem Ev.ridingEvaluation_aside (s : State) (vb : Nat) (hm : ∀ k, s.membersAside k) :
    ∃ v : Vector TierRt 4, (∀ k : Fin 4, v[k] = s.rideTier k)
      ∧ (Ev.start s).ridingEvaluation vb
        = if s.bud.record.h ≤ 0 then (Ev.start { s with tiers := v }).commit false
          else (Ev.start { s with tiers := v }).settlingStep vb := by
  obtain ⟨v, hv, hvk⟩ := Ev.rideHolds_aside allTiers (Ev.start s) (by decide) (.start s) hm
  refine ⟨v, fun k => (hvk k).trans (if_pos (by revert k; decide)), ?_⟩
  simp only [Ev.ridingEvaluation, hv]
  rfl

/-! ### The use of an evaluation by the ride state -/

/-- What ride-through makes of an evaluation, its below-dip count moved on (R105): the ride state uses it. -/
def Ev.rideUse (e : Ev) (vb : Nat) : Ev :=
  match e.ride.state with
  | .normal => e.judgeDip
  | .qualify => if e.returnTest vb then e.shortDip else e
  | .riding => e.ridingEvaluation vb
  | .restoring => if e.ride.belowDip = 2 then e.enterRiding else e
  | .committed | .rest => e

/-- The below-dip count moves first, and does not move the ride state (R115). -/
theorem Ev.rideEvaluation_eq (e : Ev) (vb : Nat) : e.rideEvaluation vb = (e.countBelow vb).rideUse vb := rfl

section
variable (u : State) (vb : Nat)

/-- NORMAL is not left unarmed, or with no dip seen (R115). -/
theorem Ev.rideUse_normal_stays (hr : u.ride.state = .normal)
    (h : u.rideArmed = false ∨ (u.pins.acOk = true ∧ u.ride.belowDip ≠ 2)) :
    (Ev.start u).rideUse vb = Ev.start u := by
  simp only [Ev.rideUse, Ev.start_ride, hr]
  obtain h | ⟨hac, hb⟩ := h
  · exact Ev.judgeDip_unarmed _ h
  · exact Ev.judgeDip_none _ (.inl (State.dipSeen_acOk hac hb))

/-- A dip begins in NORMAL (R115). -/
theorem Ev.rideUse_normal_begins (hr : u.ride.state = .normal) (ha : u.rideArmed = true)
    (h : u.pins.acOk = false ∨ u.ride.belowDip = 2) (hqual : 0 < u.cfg.ride.qualifyMs) :
    (Ev.start u).rideUse vb = (Ev.start { u with
      ride.state := .qualify, ride.qualifyTimer := u.after u.cfg.ride.qualifyMs }).powerNotice := by
  have hdip : u.dipSeen = true := by simpa [State.dipSeen] using h
  simp only [Ev.rideUse, Ev.start_ride, hr]
  exact Ev.judgeDip_begins (Ev.start u) hr ha hdip hqual

/-- QUALIFY is not left without AC_OK or below dip_level (R116). -/
theorem Ev.rideUse_qualify_stays (hr : u.ride.state = .qualify)
    (h : u.pins.acOk = false ∨ vb < u.cfg.ride.dipLevel) : (Ev.start u).rideUse vb = Ev.start u := by
  have htest : u.returnTest vb = false := by simpa [State.returnTest, imp_iff_not_or] using h
  simp only [Ev.rideUse, Ev.start_ride, hr]
  exact if_neg (Bool.eq_false_iff.1 htest)

/-- A short dip ends in QUALIFY (R116). -/
theorem Ev.rideUse_qualify_returns (hr : u.ride.state = .qualify) (hac : u.pins.acOk = true)
    (hlow : u.cfg.ride.dipLevel ≤ vb) : (Ev.start u).rideUse vb = (Ev.start u).shortDip := by
  simp only [Ev.rideUse, Ev.start_ride, hr]
  exact if_pos ((State.returnTest_acOk vb hac).trans (decide_eq_true hlow))

/-- RIDING takes its holds, commits or settles (R117). -/
theorem Ev.rideUse_riding (hr : u.ride.state = .riding) :
    (Ev.start u).rideUse vb = (Ev.start u).ridingEvaluation vb := by
  simp only [Ev.rideUse, Ev.start_ride, hr]

/-- RESTORING goes on until a second low evaluation, which returns to RIDING (R121). -/
theorem Ev.rideUse_restoring (e : Ev) (vb : Nat) (hr : e.ride.state = .restoring) :
    e.rideUse vb = if e.ride.belowDip = 2 then e.enterRiding else e := by
  simp only [Ev.rideUse, hr]

/-- COMMITTED and REST make nothing of an evaluation (R122, R124). -/
theorem Ev.rideUse_over (hr : u.ride.state = .committed ∨ u.ride.state = .rest) :
    (Ev.start u).rideUse vb = Ev.start u := by
  obtain hr | hr := hr <;> simp only [Ev.rideUse, Ev.start_ride, hr]

end

/-! ### From ride-through's part of an evaluation to the end of its event -/

/-- With limit_mode OFF and the limit in WATCH an evaluation at most returns the soft count to 0 (R139, R142). -/
theorem Ev.limitEvaluation_off (e : Ev) (ib : Nat) (hq : e.Quiet) (hmode : e.cfg.limit.mode = .off)
    (hwatch : e.limit.state = .watch) : ∃ m, e.limitEvaluation ib = { e with limit.softCount := m } := by
  unfold Ev.limitEvaluation
  split
  · let e1 : Ev := { e with limit.softCount := 0 }
    have hq1 : e1.Quiet := ⟨hq.ans, hq.tgtChanged, hq.arb, hq.act⟩
    have hsoft : e.softTest ib = e1 := by
      simp only [Ev.softTest, hwatch]
      exact if_pos hmode
    have hhard : e1.hardTest ib = e1 := if_pos hmode
    rw [hsoft, hq1.settle, hhard, hq1.settle]
    exact ⟨0, rfl⟩
  · exact ⟨e.limit.softCount, rfl⟩

/-- The end of an evaluation behind ride-through's part of it (R105, log 12). -/
def Ev.evaluationEnd (e : Ev) (ib : Nat) : State := (e.settle.limitEvaluation ib).finish

/-- With the limit OFF the end leaves what ride-through leaves. -/
theorem Ev.evaluationEnd_settled {e x : Ev} (ib : Nat) (hx : e.settle = x) (hq : x.Quiet)
    (hmode : x.cfg.limit.mode = .off) (hwatch : x.limit.state = .watch) :
    ∃ m, e.evaluationEnd ib = { x.finish with limit.softCount := m } := by
  obtain ⟨m, hm⟩ := x.limitEvaluation_off ib hq hmode hwatch
  refine ⟨m, ?_⟩
  rw [Ev.evaluationEnd, hx, hm]
  rfl

/-- The same where ride-through queues POWER of the state it leaves, and a gate it opens sets nothing off. -/
theorem Ev.evaluationEnd_tells (u : State) (ib : Nat) (arb : Bool) (hstill : arb = false ∨ u.still)
    (hmode : u.cfg.limit.mode = .off) (hwatch : u.limit.state = .watch) :
    ∃ m, Ev.evaluationEnd { (Ev.start u).powerNotice with arb := arb } ib
      = { u.powerTold with limit.softCount := m } := by
  let x : Ev := { (Ev.start u).powerNotice with arb := arb }
  have hq : (Ev.start u).powerNotice.Quiet := ⟨rfl, rfl, rfl, rfl⟩
  have hx : x.settle = (Ev.start u).powerNotice := by
    obtain rfl | hstill := hstill
    · exact hq.settle
    · exact x.settle_still rfl rfl rfl hstill
  obtain ⟨m, hm⟩ := Ev.evaluationEnd_settled ib hx hq hmode hwatch
  rw [Ev.finish_powerTold (Ev.start u).powerNotice (q := u.notices) rfl rfl rfl] at hm
  exact ⟨m, hm⟩

section
variable (u : State) (vb ib : Nat) (hmode : u.cfg.limit.mode = .off) (hwatch : u.limit.state = .watch)
include hmode hwatch

/-- An evaluation that ride-through makes nothing of. -/
theorem Ev.evaluationEnd_stays (h : (Ev.start u).rideUse vb = Ev.start u) :
    ∃ m, ((Ev.start u).rideUse vb).evaluationEnd ib = { u with limit.softCount := m } := by
  rw [h]
  exact Ev.evaluationEnd_settled ib (Ev.settle_start u) (.start u) hmode hwatch

/-- An evaluation at which a dip begins (R115). -/
theorem Ev.evaluationEnd_begins (hr : u.ride.state = .normal) (ha : u.rideArmed = true)
    (h : u.pins.acOk = false ∨ u.ride.belowDip = 2) (hqual : 0 < u.cfg.ride.qualifyMs) :
    ∃ m, ((Ev.start u).rideUse vb).evaluationEnd ib
      = { ({ u with ride.state := .qualify, ride.qualifyTimer := u.after u.cfg.ride.qualifyMs } : State).powerTold with
          limit.softCount := m } := by
  rw [Ev.rideUse_normal_begins u vb hr ha h hqual]
  exact Ev.evaluationEnd_tells { u with ride.state := .qualify, ride.qualifyTimer := u.after u.cfg.ride.qualifyMs } ib
    false (.inl rfl) hmode hwatch

/-- The state in NORMAL behind a short dip that has been counted (R116). -/
def State.afterShortDip (u : State) : State :=
  { u with
    ride.state := .normal
    ride.belowDip := 0
    ride.qualifyTimer := none
    ride.stats.shortDips := satInc 65535 u.ride.stats.shortDips }

/-- A short dip that ends at an evaluation and sets nothing off (R6, R116). -/
theorem Ev.evaluationEnd_shortDip (hr : u.ride.state = .qualify) (hac : u.pins.acOk = true)
    (hlow : u.cfg.ride.dipLevel ≤ vb) (hret : u.retArmed = false) (hstill : u.afterShortDip.still) :
    ∃ m, ((Ev.start u).rideUse vb).evaluationEnd ib = { u.afterShortDip.powerTold with limit.softCount := m } := by
  obtain ⟨b, hb⟩ := Ev.shortDip_unarmed (Ev.start u) hac hret
  rw [Ev.rideUse_qualify_returns u vb hr hac hlow, hb]
  exact Ev.evaluationEnd_tells u.afterShortDip ib b (.inr hstill) hmode hwatch

/-- The state back in RIDING (R117, R121). -/
def State.ridingAgain (u : State) : State :=
  { u with
    ride.state := .riding
    ride.settling := false
    ride.settleTimer := none
    ride.restoreTimer := none
    ride.limitTimer := if u.cfg.ride.rideLimitMs = 0 then none else u.after u.cfg.ride.rideLimitMs }

/-- An evaluation that returns to RIDING (R121). -/
theorem Ev.evaluationEnd_returns (hr : u.ride.state = .restoring) (hb : u.ride.belowDip = 2) :
    ∃ m, ((Ev.start u).rideUse vb).evaluationEnd ib = { u.ridingAgain.powerTold with limit.softCount := m } := by
  rw [(Ev.rideUse_restoring (Ev.start u) vb hr).trans (if_pos hb)]
  exact Ev.evaluationEnd_tells u.ridingAgain ib false (.inl rfl) hmode hwatch

variable (haside : ∀ k, u.membersAside k) (hr : u.ride.state = .riding)
include haside hr

/-- An evaluation in RIDING with headroom: the holds, then settling (R117, R119). -/
theorem Ev.evaluationEnd_rides (hh : 0 < u.bud.record.h) (hset : 0 < u.cfg.ride.settleMs) :
    ∃ (v : Vector TierRt 4) (q : List Notice) (m : Nat), (∀ k : Fin 4, v[k] = u.rideTier k)
      ∧ ((Ev.start u).rideUse vb).evaluationEnd ib
        = { u with tiers := v, ride := u.settlingRide vb, notices := q, limit.softCount := m } := by
  obtain ⟨v, hv, hride⟩ := Ev.ridingEvaluation_aside u vb haside
  obtain ⟨q, dirty, hstep⟩ := Ev.settlingStep_eq (Ev.start { u with tiers := v }) vb hset
  let x : Ev := { Ev.start { u with tiers := v } with ride := u.settlingRide vb, notices := q, pwDirty := dirty }
  have hx : (Ev.start u).rideUse vb = x :=
    (Ev.rideUse_riding u vb hr).trans (hride.trans ((if_neg (Int.not_le.2 hh)).trans hstep))
  have hq : x.Quiet := ⟨rfl, rfl, rfl, rfl⟩
  obtain ⟨m, hm⟩ := Ev.evaluationEnd_settled ib hq.settle hq hmode hwatch
  rw [hx]
  exact ⟨v, _, m, hv, hm⟩

/-- An evaluation in RIDING without headroom: the holds, then the commit over an idle engine (R117, R122). -/
theorem Ev.evaluationEnd_commits {ms : Nat} (hh : u.bud.record.h ≤ 0) (ht : u.target ≠ .standby)
    (hrun : u.run = none) (hreqs : u.reqs = PendingSet.none) (hsup : u.sup = .inactive ∨ u.sup = .watching)
    (hw : u.opensWithWait .panelSnap ms) :
    ∃ (v : Vector TierRt 4) (q : List Notice) (m : Nat), (∀ k : Fin 4, v[k] = u.rideTier k)
      ∧ ((Ev.start u).rideUse vb).evaluationEnd ib
        = { (({ u with tiers := v } : State).committed false).snapsBegun .powerLoss ms with
            notices := q, limit.softCount := m } := by
  obtain ⟨v, hv, hride⟩ := Ev.ridingEvaluation_aside u vb haside
  obtain ⟨q, hcommit⟩ := Ev.commit_starts { u with tiers := v } false hrun hreqs hsup hw ht
  let x : Ev := { Ev.start ((({ u with tiers := v } : State).committed false).snapsBegun .powerLoss ms) with
    notices := q, stDirty := true, pwDirty := true }
  have hx : (Ev.start u).rideUse vb = x := (Ev.rideUse_riding u vb hr).trans (hride.trans ((if_pos hh).trans hcommit))
  have hq : x.Quiet := ⟨rfl, rfl, rfl, rfl⟩
  obtain ⟨m, hm⟩ := Ev.evaluationEnd_settled ib hq.settle hq hmode hwatch
  rw [hx]
  exact ⟨v, _, m, hv, hm⟩

end

/-! ### An evaluation in each ride state -/

/-- The state behind an evaluation: its record, the below-dip count and the scanner (R93, R100, R115). -/
def State.evaluated (s : State) (sc : Scanner) (r : BudgetRec) (below : Nat) : State :=
  { s with scan := sc, bud.record := r, ride.belowDip := below }

/-- The second conversion with the bus voltage held is an evaluation and what follows it (R93, R105). -/
theorem exec_evaluation (s : State) (code : Code) {vb : Nat} (hconv : s.scan.conv = some .busCurrent)
    (hvb : s.scan.vb = some vb) :
    let u := s.evaluated (s.currentRead code.toNat).scan
      (evaluate s.cfg.budget s.bud.eReserve vb code.toNat s.bud.record.count)
      (if vb < s.cfg.ride.dipLevel then satInc 2 s.ride.belowDip else 0)
    exec (.busCurrentConversion code) s = .next (((Ev.start u).rideUse vb).evaluationEnd code.toNat) := by
  intro u
  rw [exec_busCurrentConversion s code hconv, hvb, Option.elim_some, Ev.evaluationEvent, Ev.rideEvaluation_eq]
  rfl

/-- Settles O46: each ride state's use of the evaluation, to the end of the event. The scanner, the record and the count
are generalised first: no clause looks into their arithmetic. -/
theorem evaluationsGovernTheRide : Obligations.EvaluationsGovernTheRide := by
  intro s code vb hconv hvb hmode hwatch haside c r below counted held tier
  have hexec : exec (.busCurrentConversion code) s = .next
      (((Ev.start (s.evaluated (s.currentRead code.toNat).scan r below)).rideUse vb).evaluationEnd code.toNat) :=
    exec_evaluation s code hconv hvb
  refine ⟨_, hexec, ?_, ?_⟩
  · obtain ⟨t, ht, -, hb⟩ := exec_busCurrentConversion_scan_bud s code hconv
    rw [next_inj (hexec.symm.trans ht), hb, hvb]
    rfl
  clear hexec
  generalize (s.currentRead code.toNat).scan = sc
  clear_value r below
  let u : State := s.evaluated sc r below
  have hstays := Ev.evaluationEnd_stays u vb code.toNat hmode hwatch
  refine ⟨fun hr hno => ?_, fun hr ha hd hqual => ?_, fun hr hno => ?_, fun hr hac hlow hret hstill => ?_,
    fun hr hh hset => ?_, fun g0 ms hr hh _ ht hrun hreqs hsup hw => ?_, fun hr => ?_, fun hr => ?_⟩
  · obtain ⟨m, hm⟩ := hstays (Ev.rideUse_normal_stays u vb hr hno)
    rw [hm]
    exact ⟨rfl, rfl, rfl⟩
  · obtain ⟨m, hm⟩ := Ev.evaluationEnd_begins u vb code.toNat hmode hwatch hr ha hd hqual
    rw [hm]
    exact ⟨rfl, rfl, rfl, rfl⟩
  · obtain ⟨m, hm⟩ := hstays (Ev.rideUse_qualify_stays u vb hr hno)
    rw [hm]
    exact ⟨rfl, rfl, rfl, rfl⟩
  · obtain ⟨m, hm⟩ := Ev.evaluationEnd_shortDip u vb code.toNat hmode hwatch hr hac hlow hret hstill
    rw [hm]
    exact ⟨rfl, rfl, rfl, rfl⟩
  · obtain ⟨v, q, m, hv, hm⟩ := Ev.evaluationEnd_rides u vb code.toNat hmode hwatch haside hr hh hset
    rw [hm]
    exact ⟨hv, rfl, rfl, rfl, fun hs hno => u.settlingRide_stays vb (.inr ⟨hs, hno⟩), u.settlingRide_begins vb,
      fun hs hlow => u.settlingRide_stays vb (.inl ⟨hs, hlow⟩), u.settlingRide_stops vb⟩
  · obtain ⟨v, q, m, hv, hm⟩ :=
      Ev.evaluationEnd_commits u vb code.toNat hmode hwatch haside hr hh ht hrun hreqs hsup hw
    have hheld (k : Fin 4) : v[k].holds.ride = held k := by rw [hv k]; rfl
    rw [hm]
    refine ⟨hv, rfl, rfl, rfl, rfl, rfl, ?_, rfl, rfl⟩
    rw [← hheld 0, ← hheld 1, ← hheld 2, ← hheld 3]
    rfl
  · by_cases hb : below = 2
    · obtain ⟨m, hm⟩ := Ev.evaluationEnd_returns u vb code.toNat hmode hwatch hr hb
      rw [hm]
      exact ⟨rfl, rfl, fun hne => absurd hb hne, fun _ => rfl⟩
    · obtain ⟨m, hm⟩ := hstays ((Ev.rideUse_restoring (Ev.start u) vb hr).trans (if_neg hb))
      rw [hm]
      exact ⟨rfl, rfl, fun _ => rfl, fun h => absurd h hb⟩
  · obtain ⟨m, hm⟩ := hstays (Ev.rideUse_over u vb hr)
    rw [hm]
    exact ⟨rfl, rfl, rfl⟩

end Sys2Proof.Machine

namespace Sys2Proof.Machine

/-! ### The shutdown record and the scanner after a reset -/

/-- Settles O10: the scanner of both resets holds the values of `Scanner.reset`, its first sequence begun or not. -/
theorem shutdownRecordAtReset : Obligations.ShutdownRecordAtReset := by
  intro s scannerReset
  have hrecords := Scanner.reset_records s.now
  exact ⟨⟨_, rfl, rfl, rfl, ⟨rfl, rfl, rfl, hrecords⟩, rfl, rfl, rfl⟩,
    ⟨_, rfl, rfl, rfl, ⟨rfl, rfl, rfl, hrecords⟩, rfl, rfl, rfl⟩⟩

end Sys2Proof.Machine

namespace Sys2Proof.Machine

/-! ### The expiries of ride-through's timers -/

/-- An expiry has its operation's effect while its timer runs, and none otherwise (log 3). -/
theorem runEvent_expiry (timer : State → Timer) (f : Ev → Ev) (s : State) :
    let expiry := runEvent (fun e => if (timer e.toState).isSome then (f e).settle else e) s
    (timer s = none → expiry = .next s) ∧ (timer s ≠ none → expiry = .next (f (Ev.start s)).settle.finish) := by
  refine ⟨fun h => runEvent_start (if_neg ?_), fun h => runEvent_eq (if_pos (Option.isSome_iff_ne_none.2 h))⟩
  rw [show timer (Ev.start s).toState = none from h]
  exact Bool.false_ne_true

section
variable (s : State)

/-- The qualify time is over (R116). -/
theorem exec_qualifyExpiry : (s.ride.qualifyTimer = none → exec .qualifyExpiry s = .next s)
    ∧ (s.ride.qualifyTimer ≠ none → exec .qualifyExpiry s = .next (Ev.start s).startRide.settle.finish) :=
  runEvent_expiry (fun s => s.ride.qualifyTimer) Ev.startRide s

/-- The settling time is over (R119). -/
theorem exec_settleExpiry : (s.ride.settleTimer = none → exec .settleExpiry s = .next s)
    ∧ (s.ride.settleTimer ≠ none → exec .settleExpiry s = .next (Ev.start s).enterRestoring.settle.finish) :=
  runEvent_expiry (fun s => s.ride.settleTimer) Ev.enterRestoring s

/-- A restore interval is over (R120). -/
theorem exec_restoreIntervalExpiry : (s.ride.restoreTimer = none → exec .restoreIntervalExpiry s = .next s)
    ∧ (s.ride.restoreTimer ≠ none →
      exec .restoreIntervalExpiry s = .next (Ev.start s).restoreRelease.settle.finish) :=
  runEvent_expiry (fun s => s.ride.restoreTimer) Ev.restoreRelease s

/-- The ride limit is reached (R118). -/
theorem exec_rideLimitExpiry : (s.ride.limitTimer = none → exec .rideLimitExpiry s = .next s)
    ∧ (s.ride.limitTimer ≠ none → exec .rideLimitExpiry s = .next ((Ev.start s).commit true).settle.finish) :=
  runEvent_expiry (fun s => s.ride.limitTimer) (Ev.commit · true) s

/-- The rest is over (R124). -/
theorem exec_restExpiry : (s.ride.restTimer = none → exec .restExpiry s = .next s)
    ∧ (s.ride.restTimer ≠ none → exec .restExpiry s = .next (Ev.start s).leaveRest.settle.finish) :=
  runEvent_expiry (fun s => s.ride.restTimer) Ev.leaveRest s

end

/-! ### RIDE holds given back -/

/-- A tier's record without its RIDE hold (R133). -/
def TierRt.unridden (x : TierRt) : TierRt := { x with holds := { x.holds with ride := false } }

/-- The state with the RIDE hold of tier `k` given back (R120). -/
def State.rideFreed (s : State) (k : Fin 4) : State := { s with tiers := s.tiers.set k s.tiers[k].unridden }

/-- No tier holds RIDE. -/
def State.rideless (s : State) : Prop := ∀ j : Fin 4, s.tiers[j].holds.ride = false

/-- The tiers' RIDE holds once that of tier `k` is given back. -/
theorem State.rideFreed_ride (s : State) (k j : Fin 4) :
    (s.rideFreed k).tiers[j].holds.ride = if j = k then false else s.tiers[j].holds.ride := by
  by_cases h : j = k
  · subst h
    simp [State.rideFreed, TierRt.unridden]
  · have hne : k.val ≠ j.val := fun hv => h (Fin.ext hv.symm)
    simp [State.rideFreed, h, hne]

/-- An unshed request to a rail that does not rest SHED finds nothing to do (R41). -/
theorem Ev.unshedRequests_aside (l : List Rail) (e : Ev)
    (h : ∀ r ∈ l, e.rails[r].state = .off ∨ e.rails[r].state = .faulted ∨ e.rails[r].state = .retryWait) :
    l.foldl Ev.unshedRequest e = e := by
  induction l with
  | nil => rfl
  | cons r l ih =>
    have hr : e.rails[r].state ≠ .shed := by
      obtain h | h | h := h r List.mem_cons_self <;> rw [h] <;> decide
    rw [List.foldl_cons, Ev.unshedRequest, if_neg hr]
    exact ih fun r' hr' => h r' (List.mem_cons_of_mem _ hr')

/-- The RIDE hold of a tier whose rail members stay as they are goes, if the tier holds it, and nothing else (R133). -/
theorem Ev.removeHold_ride (e : Ev) {k : Fin 4} (hm : e.membersAside k) :
    e.removeHold .ride k = e.upd (e.rideFreed k) e.ans := by
  unfold Ev.removeHold
  by_cases hk : e.tiers[k].holds.has .ride = true
  · rw [if_pos hk]
    let e1 : Ev := e.upd (e.rideFreed k) e.ans
    change (if e1.tierShed k then e1 else (e1.members k).foldl Ev.unshedRequest e1) = e1
    split
    · rfl
    · exact Ev.unshedRequests_aside _ e1 hm
  · have hsame : e.tiers[k].unridden = e.tiers[k] := by
      have hride : e.tiers[k].holds.ride = false := Bool.eq_false_iff.2 hk
      rw [TierRt.unridden, ← hride]
    rw [if_neg hk, State.rideFreed, hsame]
    simp [Ev.upd]

/-- The tiers behind tier `k` in the list are those of a higher number. -/
theorem allTiers_reverse_split (k : Fin 4) :
    allTiers.reverse = (allTiers.drop (k + 1)).reverse ++ k :: (allTiers.take k).reverse
      ∧ ∀ j ∈ (allTiers.drop (k + 1)).reverse, k < j := by
  revert k
  decide

/-- The highest-numbered tier that holds RIDE is found (R120). -/
theorem State.highestRide_eq_some (s : State) {k : Fin 4} (hk : s.tiers[k].holds.ride = true)
    (habove : ∀ j : Fin 4, k < j → s.tiers[j].holds.ride = false) : s.highestRide = some k := by
  obtain ⟨hsplit, hbefore⟩ := allTiers_reverse_split k
  refine List.find?_eq_some_iff_append.2 ⟨hk, _, _, hsplit, fun j hj => ?_⟩
  rw [habove j (hbefore j hj)]
  rfl

/-- A tier is found exactly where one holds RIDE (R120). -/
theorem State.highestRide_isSome (s : State) :
    s.highestRide.isSome = true ↔ ∃ j : Fin 4, s.tiers[j].holds.ride = true := by
  have hall (j : Fin 4) : j ∈ allTiers.reverse := by
    revert j
    decide
  exact List.find?_isSome.trans ⟨fun ⟨j, _, hj⟩ => ⟨j, hj⟩, fun ⟨j, hj⟩ => ⟨j, hall j, hj⟩⟩

/-- None is found where no tier holds RIDE. -/
theorem State.highestRide_rideless {s : State} (h : s.rideless) : s.highestRide.isSome = false := by
  rw [← Bool.not_eq_true, State.highestRide_isSome]
  exact fun ⟨j, hj⟩ => Bool.noConfusion ((h j).symm.trans hj)

/-! ### A release of RESTORING -/

/-- The first half of a release: the highest RIDE hold goes, if there is one (R120). -/
def Ev.highestFreed (e : Ev) : Ev :=
  match e.highestRide with
  | some t => e.removeHold .ride t
  | none => e

/-- The second half: a tier that still holds RIDE starts the interval again, otherwise the ride ends (R120). -/
theorem Ev.restoreRelease_eq (e : Ev) {e1 : Ev} (h : e.highestFreed = e1) :
    e.restoreRelease =
      if e1.highestRide.isSome then { e1 with ride.restoreTimer := e1.after e1.cfg.ride.restoreIntervalMs }
      else
        { e1 with
          ride.restoreTimer := none
          ride.stats.recoveries := satInc 65535 e1.ride.stats.recoveries
          ride.clock := e1.stop e1.ride.clock }.enterNormal := by
  subst h
  rfl

section
variable (e : Ev)

/-- The highest RIDE hold goes where the tier's rail members stay as they are. -/
theorem Ev.highestFreed_some {k : Fin 4} (hk : e.tiers[k].holds.ride = true)
    (habove : ∀ j : Fin 4, k < j → e.tiers[j].holds.ride = false) (hm : e.membersAside k) :
    e.highestFreed = e.upd (e.rideFreed k) e.ans := by
  have hfound : e.highestRide = some k := e.highestRide_eq_some hk habove
  simp only [Ev.highestFreed, hfound]
  exact e.removeHold_ride hm

/-- With no RIDE hold nothing goes. -/
theorem Ev.highestFreed_rideless (h : e.rideless) : e.highestFreed = e := by
  have hnone : e.highestRide = none := by simpa using State.highestRide_rideless h
  simp only [Ev.highestFreed, hnone]

/-- A release that leaves a RIDE hold starts the interval again (R120). -/
theorem Ev.restoreRelease_goesOn {e1 : Ev} (h : e.highestFreed = e1)
    (hleft : ∃ j : Fin 4, e1.tiers[j].holds.ride = true) :
    e.restoreRelease = { e1 with ride.restoreTimer := e1.after e1.cfg.ride.restoreIntervalMs } := by
  rw [e.restoreRelease_eq h, if_pos (e1.highestRide_isSome.2 hleft)]

/-- A release that leaves no RIDE hold ends the ride: with mains present and no return armed NORMAL is entered, and a
gate that opens is marked for the arbiter (R6, R120). -/
theorem Ev.restoreRelease_ends {e1 : Ev} (h : e.highestFreed = e1) (hfree : e1.rideless) (hac : e1.pins.acOk = true)
    (hret : e1.retArmed = false) :
    ∃ arb, e.restoreRelease = { (e1.upd e1.afterRecovery e1.ans).powerNotice with arb := arb } := by
  have hnone : ¬ e1.highestRide.isSome = true := Bool.eq_false_iff.1 (State.highestRide_rideless hfree)
  let e2 : Ev :=
    { e1 with
      ride.restoreTimer := none
      ride.stats.recoveries := satInc 65535 e1.ride.stats.recoveries
      ride.clock := e1.stop e1.ride.clock }
  obtain ⟨arb, harb⟩ :=
    Ev.gated_unarmed e2 (fun e => { e with ride.state := .normal, ride.belowDip := 0 }.powerNotice) hret
  refine ⟨arb, ?_⟩
  rw [e.restoreRelease_eq h, if_neg hnone, Ev.enterNormal, harb]
  exact Ev.judgeDip_none _ (.inl (State.dipSeen_acOk hac (show (0 : Nat) ≠ 2 by decide)))

end

/-! ### The ride timers -/

/-- The event of the entry to RESTORING, right before its first release: POWER is queued (R119, log 18). -/
def Ev.restoring (s : State) : Ev :=
  (Ev.start { s.afterSettling with ride.state := .restoring, ride.belowDip := 0 }).powerNotice

/-- The entry to RESTORING is followed by its first release (R119, R120). -/
theorem Ev.enterRestoring_eq (s : State) : (Ev.start s).enterRestoring = (Ev.restoring s).restoreRelease := rfl

/-- A release that ends the ride where the gate sets nothing off, POWER perhaps queued before it: POWER shows the state
it leaves (R120, R125). -/
theorem Ev.settle_recovered {e : Ev} {w : State} {q : List Notice} {dirty : Bool}
    (h : e.highestFreed = { Ev.start w with notices := q, pwDirty := dirty })
    (hq : ∀ b, enqueue q .power b = enqueue w.notices .power b) (hfree : w.rideless) (hac : w.pins.acOk = true)
    (hret : w.retArmed = false) (hstill : w.afterRecovery.still) :
    e.restoreRelease.settle.finish = w.afterRecovery.powerTold := by
  obtain ⟨arb, harb⟩ := e.restoreRelease_ends h hfree hac hret
  rw [harb, Ev.settle_powerTold _ (q := w.notices) rfl rfl rfl (by exact hstill) (hq _) rfl rfl]
  rfl

section
variable (s : State)

/-- The qualify time confirms the dip: RIDING is entered (R116). -/
theorem Ev.startRide_settled : (Ev.start s).startRide.settle.finish = ({ s with
    ride.state := .riding
    ride.settling := false
    ride.qualifyTimer := none
    ride.settleTimer := none
    ride.restoreTimer := none
    ride.limitTimer := if s.cfg.ride.rideLimitMs = 0 then none
      else some (s.now + 1000 * s.cfg.ride.rideLimitMs)
    ride.clock := .running s.now
    ride.stats.rides := satInc 65535 s.ride.stats.rides } : State).powerTold :=
  Ev.settle_quiet_powerTold _ (q := s.notices) rfl rfl rfl rfl rfl rfl rfl

variable {k : Fin 4} (hk : s.tiers[k].holds.ride = true)
  (habove : ∀ j : Fin 4, k < j → s.tiers[j].holds.ride = false) (hm : s.membersAside k)
include hk habove hm

/-- The settling time enters RESTORING, whose first release leaves a RIDE hold (R119, R120). -/
theorem Ev.enterRestoring_goesOn (hleft : ∃ j : Fin 4, (s.rideFreed k).tiers[j].holds.ride = true) :
    (Ev.start s).enterRestoring.settle.finish = ({ (s.rideFreed k).afterSettling with
      ride.state := .restoring
      ride.belowDip := 0
      ride.restoreTimer := some (s.now + 1000 * s.cfg.ride.restoreIntervalMs) } : State).powerTold := by
  have hfreed := (Ev.restoring s).highestFreed_some hk habove hm
  rw [Ev.enterRestoring_eq, (Ev.restoring s).restoreRelease_goesOn hfreed hleft,
    Ev.settle_quiet_powerTold _ (q := s.notices) rfl rfl rfl rfl rfl rfl rfl]
  rfl

/-- A restore interval ends with a release that leaves a RIDE hold (R120). -/
theorem Ev.restoreRelease_goesOn_settled (hleft : ∃ j : Fin 4, (s.rideFreed k).tiers[j].holds.ride = true) :
    (Ev.start s).restoreRelease.settle.finish = { s.rideFreed k with
      ride.restoreTimer := some (s.now + 1000 * s.cfg.ride.restoreIntervalMs) } := by
  have hfreed := (Ev.start s).highestFreed_some hk habove hm
  rw [(Ev.start s).restoreRelease_goesOn hfreed hleft, Ev.settle_quiet _ rfl rfl rfl rfl]
  rfl

variable (hfree : (s.rideFreed k).rideless) (hac : s.pins.acOk = true) (hret : s.retArmed = false)
include hfree hac hret

/-- The settling time enters RESTORING, whose first release ends the ride (R119, R120). -/
theorem Ev.enterRestoring_ends (hstill : (s.rideFreed k).afterSettling.afterRecovery.still) :
    (Ev.start s).enterRestoring.settle.finish = (s.rideFreed k).afterSettling.afterRecovery.powerTold :=
  Ev.settle_recovered
    (w := { (s.rideFreed k).afterSettling with ride.state := .restoring, ride.belowDip := 0 })
    ((Ev.restoring s).highestFreed_some hk habove hm) (enqueue_enqueue _ _ _) hfree hac hret hstill

/-- A restore interval ends with the release that ends the ride (R120). -/
theorem Ev.restoreRelease_ends_settled (hstill : (s.rideFreed k).afterRecovery.still) :
    (Ev.start s).restoreRelease.settle.finish = (s.rideFreed k).afterRecovery.powerTold :=
  Ev.settle_recovered ((Ev.start s).highestFreed_some hk habove hm) (fun _ => rfl) hfree hac hret hstill

end

/-- An entry to RESTORING that finds no RIDE hold ends the ride (R120). -/
theorem Ev.enterRestoring_rideless (s : State) (hfree : s.rideless) (hac : s.pins.acOk = true)
    (hret : s.retArmed = false) (hstill : s.afterSettling.afterRecovery.still) :
    (Ev.start s).enterRestoring.settle.finish = s.afterSettling.afterRecovery.powerTold :=
  Ev.settle_recovered (w := { s.afterSettling with ride.state := .restoring, ride.belowDip := 0 })
    ((Ev.restoring s).highestFreed_rideless hfree) (enqueue_enqueue _ _ _) hfree hac hret hstill

/-- Settles O45: each timer that runs by what its event comes to, the releases by what they leave. -/
theorem rideTimersMoveTheRide : Obligations.RideTimersMoveTheRide := by
  intro s
  obtain ⟨hqualify0, hqualify⟩ := exec_qualifyExpiry s
  obtain ⟨hsettle0, hsettle⟩ := exec_settleExpiry s
  obtain ⟨hrestore0, hrestore⟩ := exec_restoreIntervalExpiry s
  rw [Ev.startRide_settled s] at hqualify
  refine ⟨hqualify0, hqualify, hsettle0, hrestore0, fun hfree h hac hret hstill => ?_, fun k hk habove hm => ?_⟩
  · rw [hsettle h, Ev.enterRestoring_rideless s hfree hac hret hstill]
  have hleft (h : ∃ j : Fin 4, j < k ∧ s.tiers[j].holds.ride = true) :
      ∃ j : Fin 4, (s.rideFreed k).tiers[j].holds.ride = true := by
    obtain ⟨j, hlt, hj⟩ := h
    exact ⟨j, by rw [s.rideFreed_ride, if_neg (Fin.ne_of_lt hlt), hj]⟩
  have hfree (h : ∀ j : Fin 4, j ≠ k → s.tiers[j].holds.ride = false) : (s.rideFreed k).rideless := by
    intro j
    rw [s.rideFreed_ride]
    split
    · rfl
    · exact h j ‹_›
  refine ⟨fun hlow h => ?_, fun hlow h => ?_, fun hnone hac hret => ⟨fun h hstill => ?_, fun h hstill => ?_⟩⟩
  · rw [hsettle h, Ev.enterRestoring_goesOn s hk habove hm (hleft hlow)]
    rfl
  · rw [hrestore h, Ev.restoreRelease_goesOn_settled s hk habove hm (hleft hlow)]
    rfl
  · rw [hsettle h, Ev.enterRestoring_ends s hk habove hm (hfree hnone) hac hret hstill]
    rfl
  · rw [hrestore h, Ev.restoreRelease_ends_settled s hk habove hm (hfree hnone) hac hret hstill]
    rfl

end Sys2Proof.Machine

namespace Sys2Proof.Machine

/-! ### Events that queue both STATE and POWER -/

section
variable (e : Ev) {q : List Notice} {b c : NoticeBody} (hst : e.stDirty = true) (hpw : e.pwDirty = true)
include hst hpw

/-- POWER behind STATE: both stand in their places with what the event leaves (R2, R125). -/
theorem Ev.finish_toldThenPower (h : e.notices = enqueue (enqueue q .state b) .power c) :
    e.finish = { e.toState with notices := enqueue (enqueue q .state e.stateBody) .power e.powerBody } := by
  simp only [Ev.finish, Ev.finalNotices, hst, hpw, if_true, h]
  rw [retake_enqueue_ne (by decide), retake_enqueue, retake_enqueue]

/-- STATE behind POWER: both stand in their places with what the event leaves (R2, R125). -/
theorem Ev.finish_powerThenTold (h : e.notices = enqueue (enqueue q .power b) .state c) :
    e.finish = { e.toState with notices := enqueue (enqueue q .power e.powerBody) .state e.stateBody } := by
  simp only [Ev.finish, Ev.finalNotices, hst, hpw, if_true, h]
  rw [retake_enqueue, retake_enqueue_ne (by decide), retake_enqueue]

end

/-! ### The commit at the ride limit -/

section
variable (s : State) {ms : Nat} (hrun : s.run = none) (hq : s.reqs = PendingSet.none)
  (hsup : s.sup = .inactive ∨ s.sup = .watching) (hw : s.opensWithWait .panelSnap ms) (ht : s.target ≠ .standby)
include hrun hq hsup hw ht

/-- A commit over an idle engine queues STATE with its target, then POWER (R2, R122, R125). -/
theorem Ev.commit_notices (rideLimit : Bool) :
    ∃ b c, ((Ev.start s).commit rideLimit).notices = enqueue (enqueue s.notices .state b) .power c := by
  let s2 : State := { (Ev.start s).enterCommitted.toState with retVal := some s.target, retArmed := false }
  let e3 : Ev := ({ Ev.start s2 with target := .standby, retArmed := false } : Ev).stateNotice
  let e5 : Ev := e3.commitRecorded rideLimit
  have hready : e5.snapReady ms := ⟨hrun, hq, hsup, .inr nofun, hw⟩
  have hcommit : (Ev.start s).commit rideLimit = (e5.snapBoth (commitRequest rideLimit)).takeSnaps :=
    congrArg (fun x : Ev => ((x.commitRecorded rideLimit).snapBoth (commitRequest rideLimit)).takeSnaps)
      (Ev.retarget_idle s2 .standby ht hrun)
  rw [hcommit, e5.snapBoth_starts _ hready]
  exact ⟨_, _, rfl⟩

/-- What a commit over an idle engine leaves (R118, R122). -/
theorem Ev.commit_settled (rideLimit : Bool) : ((Ev.start s).commit rideLimit).settle.finish
    = ((s.committed rideLimit).snapsBegun (commitRequest rideLimit) ms).stateTold.powerTold := by
  obtain ⟨q, hcommit⟩ := Ev.commit_starts s rideLimit hrun hq hsup hw ht
  obtain ⟨b, c, hnotices⟩ := Ev.commit_notices s hrun hq hsup hw ht rideLimit
  rw [hcommit] at hnotices ⊢
  rw [Ev.settle_quiet _ rfl rfl rfl rfl, Ev.finish_toldThenPower _ rfl rfl hnotices]
  rfl

end

/-- The figures of a commit name the tiers that hold RIDE (R122, R128). -/
theorem State.tiersHeld_eq (s : State) : s.tiers.map (fun x => x.holds.ride)
    = #v[s.tiers[0].holds.ride, s.tiers[1].holds.ride, s.tiers[2].holds.ride, s.tiers[3].holds.ride] := by
  ext i hi
  obtain h | h | h | h : i = 0 ∨ i = 1 ∨ i = 2 ∨ i = 3 := by omega
  all_goals subst h; simp

/-! ### The end of the rest -/

/-- The return is armed if it is to come back to BOARD_ON or PANEL_ON (R18). -/
theorem Ev.armReturn_eq (e : Ev) : e.armReturn = { e with
    retArmed :=
      if e.cfg.ride.autoReturn = true ∧ (e.retVal = some .boardOn ∨ e.retVal = some .panelOn) then true
      else e.retArmed } := by
  unfold Ev.armReturn
  split <;> rfl

/-- The state in NORMAL behind the rest (R124). -/
def State.rested (s : State) : State := { s with ride.restTimer := none, ride.state := .normal, ride.belowDip := 0 }

/-- REST is left with AC_OK deasserted and ride-through not armed: the return is armed (R18, R124). -/
theorem Ev.leaveRest_closed (s : State) (hac : s.pins.acOk = false) (ha : s.rideArmed = false) :
    (Ev.start s).leaveRest.settle.finish = ({ s.rested with
      retArmed :=
        if s.cfg.ride.autoReturn = true ∧ (s.retVal = some .boardOn ∨ s.retVal = some .panelOn) then true
        else s.retArmed } : State).powerTold := by
  rw [Ev.leaveRest, Ev.armReturn_eq, Ev.enterNormal, Ev.gated_closed _ _ (State.gateOpen_acOk (by exact hac)),
    Ev.judgeDip_unarmed _ (by exact ha), Ev.settle_quiet_powerTold _ (q := s.notices) rfl rfl rfl rfl rfl rfl rfl]
  rfl

/-- In STANDBY with the gate open a higher target makes BOARD_UP startable (R5, R61). -/
theorem State.startable_boardUp {s : State} (hs : s.sys = .standby) (ht : s.target ≠ .standby)
    (hg : s.gateOpen = true) : s.startable = some .boardUp := by
  unfold State.startable State.duePlan
  cases h : s.target <;> simp_all [PlanId.isUp]

/-- The event of a return that has fired at the end of the rest: POWER, then the target with STATE (R18, R124). -/
def Ev.returned (s : State) (g : Target) : Ev :=
  { ({ (Ev.start s.rested).powerNotice with target := g, retVal := none, retArmed := false } : Ev).stateNotice with
    tgtChanged := true, arb := true }

section
variable (s : State) {g : Target} (hac : s.pins.acOk = true) (hheat : s.thermal.state ≠ .hot)
  (hsys : s.sys = .standby)
include hac hheat hsys

/-- Behind the rest the mains gate is open (R6). -/
theorem State.gateOpen_rested : s.rested.gateOpen = true :=
  (State.gateOpen_iff _).2 ⟨hac, rfl, hheat, by rw [show s.rested.sys = .standby from hsys]; decide⟩

variable (hg : g ≠ .standby)
include hg

/-- REST is left for an open gate: the return is armed and fires (R6, R18, R124). -/
theorem Ev.leaveRest_fires (hride : s.ride.state = .rest) (ht : s.target = .standby)
    (hauto : s.cfg.ride.autoReturn = true) (hval : s.retVal = some g) : (Ev.start s).leaveRest = Ev.returned s g := by
  have harm : s.cfg.ride.autoReturn = true ∧ (s.retVal = some .boardOn ∨ s.retVal = some .panelOn) := by
    refine ⟨hauto, ?_⟩
    cases g
    · exact absurd rfl hg
    · exact .inl hval
    · exact .inr hval
  let e : Ev := Ev.start { s with ride.restTimer := none, retArmed := true }
  have he : ({ Ev.start s with ride.restTimer := none } : Ev).armReturn = e := if_pos harm
  have hclosed : e.gateOpen = false := State.gateOpen_ride (by rw [show e.ride.state = .rest from hride]; decide)
  rw [Ev.leaveRest, he, Ev.enterNormal,
    Ev.gated_fires e _ (g := g) hclosed (s.gateOpen_rested hac hheat hsys) rfl hval (by exact ht ▸ hg)]
  exact Ev.judgeDip_none _ (.inl (State.dipSeen_acOk hac (show (0 : Nat) ≠ 2 by decide)))

/-- A return that has fired over an idle engine starts BOARD_UP, here with a WAIT (R5, R18). -/
theorem Ev.returned_starts {ms : Nat} (hrun : s.run = none) (hq : s.reqs = PendingSet.none) (hsup : s.sup = .inactive)
    (hw : s.opensWithWait .boardUp ms) :
    (Ev.returned s g).settle.finish = ({ s.rested with
      retVal := none
      retArmed := false
      target := g
      run := some (s.firstWait .boardUp .planned ms)
      plans := s.plans.set 0 s.plans[0].atStart } : State).powerTold.stateTold := by
  let x : Ev := { Ev.returned s g with tgtChanged := false, arb := true }
  have hreport : (Ev.returned s g).reportTarget = { Ev.returned s g with tgtChanged := false } :=
    Ev.reportTarget_unmoved _ (.inr hrun)
  have hdue : x.startable = some .boardUp :=
    State.startable_boardUp hsys hg (s.gateOpen_rested hac hheat hsys)
  have harb := Ev.arbitrate_starts x .boardUp (ms := ms) hrun (Ev.choose_startable x hq hdue) (.inl hsup)
    (.inl (State.dipSeen_acOk hac (show (0 : Nat) ≠ 2 by decide))) hw
  rw [Ev.settle_target (Ev.returned s g) rfl rfl
    ((congrArg (fun e => Ev.arbitrate { e with arb := true }) hreport).trans harb) rfl,
    Ev.finish_powerThenTold _ (q := s.notices) rfl rfl rfl, State.planBegun_undark x.toState hsup rfl rfl]
  rfl

end

/-! ### The end of BOARD_SNAP in COMMITTED -/

/-- The state with every RIDE hold gone, in REST with its time begun (R124). -/
def State.resting (s : State) : State :=
  { s with
    tiers := s.tiers.map TierRt.unridden
    ride.state := .rest
    ride.restTimer := s.after s.cfg.ride.restMs }

/-- The tiers with the RIDE hold of one of them gone. -/
def unriddenAt (v : Vector TierRt 4) (k : Fin 4) : Vector TierRt 4 := v.set k v[k].unridden

/-- Each RIDE hold goes in its turn where all tiers' rail members stay as they are (R124). -/
theorem Ev.removeHolds_ride (l : List (Fin 4)) (e : Ev) (hm : ∀ k, e.membersAside k) :
    l.foldl (fun e t => e.removeHold .ride t) e
      = { e with tiers := l.foldl unriddenAt e.tiers } := by
  induction l generalizing e with
  | nil => rfl
  | cons k l ih =>
    rw [List.foldl_cons, e.removeHold_ride (hm k), ih _ (by exact hm)]
    rfl

/-- One tier after the other is every tier at once. -/
theorem allTiers_unridden (v : Vector TierRt 4) :
    allTiers.foldl unriddenAt v = v.map TierRt.unridden := by
  ext i hi
  obtain h | h | h | h : i = 0 ∨ i = 1 ∨ i = 2 ∨ i = 3 := by omega
  all_goals subst h; simp [allTiers, unriddenAt]

/-- REST is entered, here with rest_ms above 0 (R124). -/
theorem Ev.enterRest_eq (e : Ev) (hm : ∀ k, e.membersAside k) (hms : 0 < e.cfg.ride.restMs) :
    e.enterRest = (e.upd e.resting e.ans).powerNotice := by
  rw [Ev.enterRest, e.removeHolds_ride allTiers hm, allTiers_unridden]
  exact if_neg (Nat.ne_of_gt hms)

/-- Whether a tier's rail members stay as they are is a matter of the rails and the tables in force alone. -/
theorem State.membersAside.congr {s t : State} {k : Fin 4} (h : s.membersAside k) (hrails : t.rails = s.rails)
    (hcfg : t.cfg = s.cfg) : t.membersAside k := by
  have hmem : t.members k = s.members k := by
    unfold State.members State.railCfg
    rw [hcfg]
  unfold State.membersAside
  rw [hmem, hrails]
  exact h

/-- The end of BOARD_SNAP in COMMITTED completes the record and enters REST (R123, R124, R129). -/
theorem Ev.rideOnPlanEnd_committed (e : Ev) {k : Nat} {d : ShutdownRec} {slot : HsOutcome}
    (hrec : e.snapRecorded k = e.withShutdown d slot) (hride : e.ride.state = .committed)
    (hm : ∀ k, e.membersAside k) (hms : 0 < e.cfg.ride.restMs) :
    e.rideOnPlanEnd .boardSnap .done k = (e.upd (e.withShutdown d slot).resting e.ans).powerNotice := by
  have h : e.completeBySnap k = e.upd (e.withShutdown d slot) e.ans := by rw [Ev.completeBySnap_eq, hrec]
  simp only [Ev.rideOnPlanEnd, h]
  exact (if_pos hride).trans (Ev.enterRest_eq _ (by exact hm) hms)

/-- BOARD_SNAP ends in STANDBY under a commit: the record is completed, RIDE is given back and REST entered (R123, R124,
R129). -/
theorem Ev.settle_boardSnapRests (s : State) {e : Ev} {run : Run} {n : Nat} {c : Cause}
    (h : ∀ m, Ev.runSteps (m + 1) e = Ev.runSteps m (Ev.ended s run .done n c)) (hp : run.plan = .boardSnap)
    (hs : s.sys = .boardOn) (hk : s.keyHold = .idle) (ht : s.target = .standby) (hq : s.reqs = PendingSet.none)
    (hride : s.ride.state = .committed) (hlock : s.anyLockout = false) (hm : ∀ k, s.membersAside k)
    (hms : 0 < s.cfg.ride.restMs) :
    e.settle.finish = (({ s.snapRecorded (run.stepsDone + 1) with
        sys := .standby
        tiers := s.tiers.map TierRt.unridden
        ride.state := .rest
        ride.restTimer := some (s.now + 1000 * s.cfg.ride.restMs) } : State).planEnded .boardSnap .done n
          c).stateTold.powerTold := by
  obtain ⟨d, slot, hrec⟩ := s.snapRecorded_shape (run.stepsDone + 1)
  have hcfg : s.cfg = s.tables := by simp only [State.cfg, hs]
  let z : Ev := Ev.planOver s .boardSnap .done n c
  let y : Ev := ({ z with sys := .standby } : Ev).stateNotice
  have hdone : z.stateOnDone .boardSnap = z.setSys .standby :=
    if_neg (by rw [show z.anyLockout = false from hlock]; exact Bool.false_ne_true)
  have hmoved : z.stateOnEnd .boardSnap .done = y := Ev.stateOnEnd_moves z .boardSnap hdone
    (by rw [show z.sys = .boardOn from hs]; decide) hk (.inl ⟨by decide, by decide⟩) (.inr ⟨rfl, rfl⟩)
  have hrests := y.rideOnPlanEnd_committed (by exact hrec y.toState rfl rfl) hride
    (fun k => (hm k).congr rfl hcfg.symm) (by rw [hcfg] at hms; exact hms)
  let x : Ev := { (y.upd (y.withShutdown d slot).resting y.ans).powerNotice with planEnded := true, arb := true }
  have hx : Ev.ended s run .done n c = x := by
    rw [Ev.ended, hp, hmoved, hrests]
  rw [hx] at h
  have hrest : x.atRest := ⟨rfl, hq, State.startable_reached _ (g := .standby) rfl ht⟩
  have harb := Ev.arbitrate_atRest_elsewhere x hrest (show SysState.standby ≠ .panelOn by decide)
  rw [Ev.settle_ended h rfl rfl rfl harb rfl,
    Ev.finish_toldThenPower _ (q := z.notices) rfl rfl rfl, hrec s rfl rfl, hcfg]
  rfl

/-- Settles O47: the commit, the two ends of the rest, and the end of BOARD_SNAP, each to the end of its event. -/
theorem commitAndReturn : Obligations.CommitAndReturn := by
  refine ⟨fun s ms hrun hq hsup => ?_, fun s run d hr hd hp ht hl hs htgt hq hk hlock hride hms hm => ?_⟩
  · obtain ⟨hlimit0, hlimit⟩ := exec_rideLimitExpiry s
    obtain ⟨hrest0, hrest⟩ := exec_restExpiry s
    refine ⟨fun g0 h _ ht hw => ?_, hlimit0, hrest0, fun h hac ha => ?_,
      fun g hsup h hride hac hheat hsys ht hauto hval hg hw => ?_⟩
    · rw [hlimit h, Ev.commit_settled s hrun hq hsup hw ht, s.tiersHeld_eq]
      rfl
    · rw [hrest h, Ev.leaveRest_closed s hac ha]
      rfl
    · rw [hrest h, Ev.leaveRest_fires s hac hheat hsys hg hride ht hauto hval,
        Ev.returned_starts s hac hheat hsys hg hrun hq hsup hw]
      rfl
  · have hplan : s.plans[run.plan.idx] = s.plans[5] := by simp only [hp]; rfl
    have hend := Ev.runSteps_done s ht (by rw [hp]; exact hl)
    rw [hplan] at hend
    rw [exec_waitStepExpiry s hr hd, Ev.settle_boardSnapRests s hend hp hs hk htgt hq hride
      (s.anyLockout_eq_false.2 hlock) hm hms]
    rfl

end Sys2Proof.Machine

namespace Sys2Proof.Machine

/-! ### A hold that queues POWER, on a tier whose rail members stay as they are -/

/-- The event with a hold set of tier `k` replaced, the shed count raised where it becomes non-empty, and POWER queued
(R132, R133, R136). -/
def Ev.heldTold (e : Ev) (k : Fin 4) (h : HoldSet) (b : NoticeBody) : Ev :=
  { e.upd (e.held k h) e.ans with notices := enqueue e.notices .power b, pwDirty := true }

/-- A set with a hold placed in it is not empty. -/
theorem HoldSet.any_of_has {h : HoldSet} {a : Hold} (ha : h.has a = true) : h.any = true := by
  cases a <;> simp only [HoldSet.has] at ha <;> simp [HoldSet.any, ha]

/-- A hold put into a set is in it. -/
theorem HoldSet.has_put (h : HoldSet) (a : Hold) (b : Bool) : (h.put a b).has a = b := by
  cases a <;> rfl

section
variable (e : Ev) {k : Fin 4} (a : Hold)

/-- A hold of any kind but RIDE queues POWER (R136). -/
theorem Ev.holdNotice_told (ha : a ≠ .ride) : e.holdNotice a = e.powerNotice := by
  cases a with
  | ride => exact absurd rfl ha
  | limit | heat | host => rfl

/-- A hold on a tier that does not hold it (R133, R136). -/
theorem Ev.placeHold_told (hm : e.membersAside k) (ha : a ≠ .ride) (hk : e.tiers[k].holds.has a = false) :
    ∃ b, e.placeHold a k = e.heldTold k (e.tiers[k].holds.put a true) b := by
  have hany : (e.tiers[k].holds.put a true).any = true := HoldSet.any_of_has (HoldSet.has_put _ a true)
  let e0 : Ev := e.setTier k fun x => { x with holds := x.holds.put a true }
  let e1 : Ev := e0.powerNotice
  refine ⟨e0.powerBody, ?_⟩
  unfold Ev.placeHold
  rw [if_neg (Bool.eq_false_iff.1 hk), Ev.holdNotice_told _ a ha]
  by_cases hshed : e.tierShed k = true
  · have hset : e.tiers[k].holds.any = true := hshed
    refine (if_pos hshed).trans ?_
    simp only [Ev.heldTold, State.held, hset, Bool.true_eq_false, false_and, if_false]
    rfl
  · have hset : e.tiers[k].holds.any = false := Bool.eq_false_iff.2 hshed
    let e2 : Ev := e1.setTier k fun x => { x with shedCount := satInc 65535 x.shedCount }
    refine (if_neg hshed).trans ((Ev.shedRequests_aside (e2.members k) e2 hm).trans ?_)
    simp only [Ev.heldTold, State.held, hset, hany, and_self, if_true]
    simp [e2, e1, e0, Ev.setTier, Ev.upd, Ev.powerNotice, Ev.notice]

/-- The removal of a hold that the tier holds (R133, R136). -/
theorem Ev.removeHold_told (hm : e.membersAside k) (ha : a ≠ .ride) (hk : e.tiers[k].holds.has a = true) :
    ∃ b, e.removeHold a k = e.heldTold k (e.tiers[k].holds.put a false) b := by
  have hset : e.tiers[k].holds.any = true := HoldSet.any_of_has hk
  let e0 : Ev := e.setTier k fun x => { x with holds := x.holds.put a false }
  let e1 : Ev := e0.powerNotice
  have hrest : (if e1.tierShed k then e1 else (e1.members k).foldl Ev.unshedRequest e1) = e1 := by
    split
    · rfl
    · exact Ev.unshedRequests_aside _ e1 hm
  refine ⟨e0.powerBody, ?_⟩
  unfold Ev.removeHold
  rw [if_pos hk, Ev.holdNotice_told _ a ha]
  refine hrest.trans ?_
  simp only [Ev.heldTold, State.held, hset, Bool.true_eq_false, false_and, if_false]
  rfl

end

/-! ### SET_HOLD on such a tier -/

/-- SET_HOLD outside STARTING to the end of its event: the reply shows the hold set and whether it sheds (R137). -/
theorem exec_setHold_replied (s : State) (tag : Byte) (k : Fin 4) (on : Bool) (hr : s.ready) (h1 : s.sys ≠ .starting)
    {e : Ev} (he : (if on then (Ev.start s).placeHold .host k else (Ev.start s).removeHold .host k).settle = e) :
    exec (.setHold tag [tierByte k, if on then 0 else 1]) s = .next (e.finish.replied
      ⟨0x0C, tag, [tierByte k, if on then 0 else 1]⟩ .ok
      [e.tiers[k].holds.byte, if e.tiers[k].holds.any then 1 else 0]) := by
  refine request_dispatched 0x0C tag _ s hr h1 (r := ⟨e, .ok, [e.tiers[k].holds.byte] ++ flag (e.tierShed k)⟩) ?_
  show (Ev.start s).serveSetHold _ = _
  simp only [Ev.serveSetHold, holdArgs_tierByte, he]

/-- SET_HOLD of a hold that is as asked finds nothing to do (R133). -/
theorem Ev.setHold_asAsked (e : Ev) {k : Fin 4} {on : Bool} (h : e.tiers[k].holds.host = on) :
    (if on then e.placeHold .host k else e.removeHold .host k) = e := by
  cases on with
  | true => exact (if_pos rfl).trans (if_pos h)
  | false => exact (if_neg Bool.false_ne_true).trans (if_neg (Bool.eq_false_iff.1 h))

/-- SET_HOLD of a hold that is not as asked places or removes it (R133, R137). -/
theorem Ev.setHold_changes (e : Ev) {k : Fin 4} {on : Bool} (hm : e.membersAside k) (h : e.tiers[k].holds.host ≠ on) :
    ∃ b, (if on then e.placeHold .host k else e.removeHold .host k)
      = e.heldTold k { e.tiers[k].holds with host := on } b := by
  cases on with
  | true => exact e.placeHold_told .host hm (by decide) (Bool.eq_false_iff.2 h)
  | false => exact e.removeHold_told .host hm (by decide) (Bool.eq_true_of_not_eq_false h)

/-- The shed count rises where a HOST hold that is not as asked is placed on an empty set (R133). -/
theorem State.held_host (s : State) {k : Fin 4} {on : Bool} (h : s.tiers[k].holds.host ≠ on) :
    (s.held k { s.tiers[k].holds with host := on }).tiers = s.tiers.set k
      { holds := { s.tiers[k].holds with host := on }
        shedCount := if on = true ∧ s.tiers[k].holds.any = false then satInc 65535 s.tiers[k].shedCount
          else s.tiers[k].shedCount } := by
  cases on with
  | true => simp [State.held, HoldSet.any]
  | false =>
    have hset : s.tiers[k].holds.any = true := HoldSet.any_of_has (a := .host) (Bool.eq_true_of_not_eq_false h)
    simp only [State.held, hset, Bool.true_eq_false, Bool.false_eq_true, false_and, if_false]

/-- Settles O32: the hold as asked, and the hold placed or removed with POWER behind it. -/
theorem setHoldPlacesAndRemoves : Obligations.SetHoldPlacesAndRemoves := by
  intro s tag k on hready hsys hm body x h' s'
  refine ⟨fun h => ?_, fun h => ?_⟩
  · exact exec_setHold_replied s tag k on hready hsys
      ((congrArg Ev.settle (Ev.setHold_asAsked (Ev.start s) h)).trans (Ev.settle_start s))
  · obtain ⟨b, hput⟩ := Ev.setHold_changes (Ev.start s) hm h
    let e : Ev := (Ev.start s).heldTold k h' b
    have hsettle : e.settle = e := Ev.settle_quiet e rfl rfl rfl rfl
    have hheld : s.held k h' = s' := congrArg (fun v => ({ s with tiers := v } : State)) (s.held_host h)
    have hfinish : e.finish = { s' with notices := enqueue s.notices .power s'.powerBody } := by
      rw [← hheld]
      exact Ev.finish_powerTold e (q := s.notices) rfl rfl rfl
    have hholds : e.tiers[k].holds = h' := by simp [e, Ev.heldTold, State.held, Ev.upd]
    rw [exec_setHold_replied s tag k on hready hsys ((congrArg Ev.settle hput).trans hsettle), hfinish, hholds]

end Sys2Proof.Machine

namespace Sys2Proof.Machine

/-! ### The action SYSTEM over an idle engine, whether or not the start of PANEL_SNAP lets a dip begin -/

/-- The engine is idle with nothing pending, and PANEL_SNAP, were it requested, would begin with a WAIT of `ms` ms: as
`State.snapReady`, but a dip that is seen may begin with the start (R115). -/
def State.snapOpens (s : State) (ms : Nat) : Prop :=
  s.run = none ∧ s.reqs = PendingSet.none ∧ (s.sup = .inactive ∨ s.sup = .watching) ∧ s.opensWithWait .panelSnap ms

/-- With no dip seen the rest of `State.snapReady` is left. -/
theorem State.snapReady.opens {s : State} {ms : Nat} (h : s.snapReady ms) : s.snapOpens ms := by
  obtain ⟨hrun, hq, hsup, -, hw⟩ := h
  exact ⟨hrun, hq, hsup, hw⟩

/-- In a ride no start lets a dip begin. -/
theorem State.snapOpens.ready {s : State} {ms : Nat} (h : s.snapOpens ms) :
    ({ s with ride.state := .riding } : State).snapReady ms := by
  obtain ⟨hrun, hq, hsup, hw⟩ := h
  exact ⟨hrun, hq, hsup, .inr nofun, hw⟩

/-- A dip that begins, or does not, moves the ride and POWER alone (R115, R125). -/
theorem Ev.judgeDip_eq (e : Ev) : ∃ (r : Ride) (q : List Notice) (d : Bool),
    e.judgeDip = { e with ride := r, notices := q, pwDirty := d } := by
  unfold Ev.judgeDip Ev.enterQualify
  split
  · dsimp only
    split <;> exact ⟨_, _, _, rfl⟩
  · exact ⟨_, _, _, rfl⟩

/-- The start of a plan where no dark hold stands, up to the WAIT of its first step (R49, R115). -/
theorem Ev.startPlan_opens (e : Ev) (p : PlanId) {ms : Nat} (hs : e.sup = .inactive ∨ e.sup = .watching)
    (hw : e.opensWithWait p ms) : ∃ (r : Ride) (q : List Notice) (d : Bool),
      e.startPlan p = { e.upd { e.planBegun p ms with ride := r, notices := q } none with pwDirty := d } := by
  obtain ⟨hb, hk, hv, hms⟩ := hw
  let s1 : State := { e.planSet p with
    sup := .inactive
    watch := if e.sup = .watching then .stopped (e.countedUs e.watch) else e.watch
    pulse := if p.isSnap then .idle else e.pulse }
  have h2 := Ev.endSupervision_undark (e.upd (e.planSet p) none) hs
  obtain ⟨r, q, d, h3⟩ := (e.upd s1 none).judgeDip_eq
  let e3 : Ev := { e.upd s1 none with ride := r, notices := q, pwDirty := d }
  refine ⟨r, q, d, ?_⟩
  rw [Ev.startPlan_steps e p h2 h3 hb]
  exact Ev.beginStep_wait e3 rfl hk hv hms

section
variable (e : Ev) (c : Cause) {ms : Nat} (h : e.snapOpens ms)
include h

/-- Requests for both snap plans are taken: PANEL_SNAP starts, BOARD_SNAP pending behind it (R61, R63). -/
theorem Ev.snapBoth_opens : ∃ (r : Ride) (q : List Notice) (d : Bool), (e.snapBoth c).takeSnaps
    = { e.upd { e.snapsBegun c ms with ride := r, notices := q } none with
        pwDirty := d, arb := false, tgtChanged := false, planEnded := false } := by
  obtain ⟨h1, h2⟩ := h.ready.live
  obtain ⟨hrun, hq, hsup, hw⟩ := id h
  have hidle (x : Ev) (p : PlanId) (hx : x.run = none) (hp : x.isPending p = false) : x.planStatus p = .idle :=
    State.planStatus_idle x.toState (fun run hr => absurd (hr.symm.trans hx) (Option.some_ne_none run)) hp
  let y : Ev := { e with reqs := { PendingSet.none with panelSnap := some c } }
  let x : Ev := { e with reqs := { PendingSet.none with panelSnap := some c, boardSnap := some c } }
  have hpanel : e.snapRequest .panelSnap c = y := by
    rw [Ev.snapRequest_pends e c h1 h2 (hidle e _ hrun (by rw [State.isPending, hq]; rfl)), hq]
    rfl
  have hboth : e.snapBoth c = x := by
    rw [Ev.snapBoth, hpanel, Ev.snapRequest_pends y c h1 h2 (hidle y _ hrun rfl)]
    rfl
  have htake : x.takeSnaps = x.arbitrate := by
    have hx : x.run = none := hrun
    simp only [Ev.takeSnaps, hx]
  obtain ⟨r, q, d, hstart⟩ := x.startPlan_opens .panelSnap hsup hw
  let z : Ev := { x.upd { x.planBegun .panelSnap ms with ride := r, notices := q } none with pwDirty := d }
  have hz : z.run ≠ none := Option.some_ne_none _
  have hrun1 : Ev.runArbiter planFuel x = z := by
    have hi : x.engineIdle = true := by simp [State.engineIdle, x, hrun]
    rw [planFuel, Ev.runArbiter, if_pos hi, Ev.choose_panelSnap x h1 h2 rfl]
    simp only [hstart]
    rw [Ev.runSteps_quiet _ _ rfl, Ev.runArbiter_busy _ _ hz]
  refine ⟨r, q, d, ?_⟩
  rw [hboth, htake]
  simp only [Ev.arbitrate, hrun1]
  split
  · exact Ev.armSupervision_busy _ hz
  · rename_i hp
    have hp' : z.planEnded = false := by simpa using hp
    rw [← hp']
    rfl

/-- The target goes to STANDBY over an idle engine (R2, R3). -/
theorem Ev.retarget_standby : ∃ (a d : Bool) (q : List Notice), (e.writeTarget .standby).reportTarget
    = { e with target := .standby, retArmed := a, notices := q, stDirty := d, tgtChanged := false } := by
  obtain ⟨hrun, -⟩ := h
  by_cases ht : Target.standby = e.target
  · refine ⟨e.retArmed, e.stDirty, e.notices, ?_⟩
    rw [show e.writeTarget .standby = e from if_pos ht, Ev.reportTarget_unmoved _ (.inr hrun), ht]
  · let x : Ev := ({ e with target := .standby, retArmed := false } : Ev).stateNotice
    refine ⟨false, true, x.notices, ?_⟩
    rw [show e.writeTarget .standby = { x with tgtChanged := true } from if_neg ht]
    exact Ev.reportTarget_unmoved { x with tgtChanged := true } (.inr hrun)

end

/-- `t` is what the action SYSTEM leaves of `s` (R155): the target STANDBY, a shutdown record opened with the cause and
the source, PANEL_SNAP in its first step and BOARD_SNAP pending. Holds, limit, thermal checks and records stand. -/
structure State.TakenDown (s t : State) (cause : ShutCause) (source : Nat) (request : Cause) (ms : Nat) : Prop where
  target : t.target = .standby
  shutdown : t.shutdown = { ShutdownRec.opened cause with source := source }
  run : t.run = some (s.firstWait .panelSnap request ms)
  reqs : t.reqs = { PendingSet.none with boardSnap := some request }
  tiers : t.tiers = s.tiers
  limit : t.limit = s.limit
  thermal : t.thermal = s.thermal
  faults : t.faults = s.faults

section
variable (e : Ev) {src : Fin 15} {cause : ShutCause} {source : Nat} {ms : Nat} (h : e.snapOpens ms)
  (hopen : ∀ x : Ev, x.openByFault src = x.openShutdown cause source)
include h hopen

/-- Action SYSTEM takes the set down (R155). -/
theorem Ev.actSystem_takesDown :
    e.toState.TakenDown (e.actSystem src).toState cause source (snapCauseOf src) ms := by
  have hidle : e.planStatus .boardSnap = .idle :=
    Ev.planStatus_snapReady { e with ride.state := .riding } h.ready .boardSnap
  obtain ⟨a, d, q, htarget⟩ := e.retarget_standby h
  let x : Ev := ({ e with target := .standby, retArmed := a, notices := q, stDirty := d, tgtChanged := false } :
    Ev).openShutdown cause source
  have hx : x.snapOpens ms := h
  obtain ⟨r, q', d', hsnaps⟩ := x.snapBoth_opens (snapCauseOf src) hx
  have hact : e.actSystem src = (x.snapBoth (snapCauseOf src)).takeSnaps := by
    simp only [Ev.actSystem, htarget, hidle, if_true, hopen, x]
  rw [hact, hsnaps]
  exact ⟨rfl, rfl, rfl, rfl, rfl, rfl, rfl, rfl⟩

/-- The same to the end of the event that marks it. -/
theorem Ev.settle_takesDown (hans : e.ans = none) (htgt : e.tgtChanged = false) (harb : e.arb = false)
    (hact : e.act = some (src, .system)) :
    e.toState.TakenDown e.settle.finish cause source (snapCauseOf src) ms := by
  have hserve : e.serve = e := by
    simp [Ev.serve, Ev.runSteps_quiet _ e hans, htgt, harb]
  have hsettle : e.settle = Ev.actSystem { e with act := none } src := by
    rw [Ev.settle, hserve, Ev.applyAct, hact]
  obtain ⟨h1, h2, h3, h4, h5, h6, h7, h8⟩ := Ev.actSystem_takesDown { e with act := none } h hopen
  rw [hsettle]
  exact ⟨h1, h2, h3, h4, h5, h6, h7, h8⟩

end

/-- The condition's end touches the record and FAULT alone (R149, R151). -/
theorem Ev.conditionEnded_shape (e : Ev) (src : Fin 15) : ∃ q : List Notice, e.conditionEnded src = { e with
    faults := e.faults.set src { e.faults[src] with condition := false }, notices := q } := by
  cases hc : e.faults[src].condition with
  | false =>
    refine ⟨e.notices, ?_⟩
    have hsame : ({ e.faults[src] with condition := false } : FaultRec) = e.faults[src] := by rw [← hc]
    rw [Ev.conditionEnded_absent e src hc, hsame]
    simp
  | true =>
    unfold Ev.conditionEnded
    rw [if_pos hc]
    dsimp only
    split
    · exact ⟨_, rfl⟩
    · exact ⟨_, rfl⟩

end Sys2Proof.Machine

namespace Sys2Proof.Machine

/-! ### The thermal checks -/

/-- A temperature completion in a state that watches the limits (R94, R144): the scanner, and the thermal checks. -/
theorem exec_temperature (s : State) (code : Code) (hconv : s.scan.conv = some .slow) (hptr : s.scan.pointer = 2)
    (hsys : s.sys.watchesLimits = true) :
    ∃ sc : Scanner, exec (.slowConversion code) s = .next ((Ev.start { s with scan := sc }).thermalMove
      (((code.toNat * 1650 / 4096 : Nat) : Int) - 400)).settle.finish := by
  have hscale : s.scale 2 code.toNat = ((code.toNat * 1650 / 4096 : Nat) : Int) - 400 := rfl
  refine ⟨(s.slowRead code.toNat).scan, ?_⟩
  rw [exec_slowConversion s code hconv, hptr, hscale]
  exact congrArg (fun e : Ev => Host.Outcome.next e.finish) (if_pos hsys)

/-- The thermal checks watch in the four states that R144 names. -/
theorem SysState.watchesLimits_of {x : SysState} (h : x = .standby ∨ x = .boardOn ∨ x = .panelOn ∨ x = .lockout) :
    x.watchesLimits = true := by
  obtain rfl | rfl | rfl | rfl := h <;> rfl

section
variable (e : Ev) (v : Int)

/-- In COOL shutdown is looked at first, then warn (R144, R145). -/
theorem Ev.thermalMove_cool (h : e.thermal.state = .cool) :
    e.thermalMove v = if (e.cfg.thermal.shutdown : Int) ≤ v then e.placeHeat.enterHot v
      else if (e.cfg.thermal.warn : Int) ≤ v then { e.placeHeat with thermal.state := .warn } else e := by
  simp only [Ev.thermalMove, h]

/-- In WARN shutdown is looked at first, then warn's hysteresis (R144, R145). -/
theorem Ev.thermalMove_warn (h : e.thermal.state = .warn) :
    e.thermalMove v = if (e.cfg.thermal.shutdown : Int) ≤ v then e.enterHot v
      else if v < (e.cfg.thermal.warn : Int) - e.cfg.thermal.hyst then
        ({ e with thermal.state := .cool } : Ev).dropHeat
      else e := by
  simp only [Ev.thermalMove, h]

/-- In HOT only the shutdown hysteresis counts (R145). -/
theorem Ev.thermalMove_hot (h : e.thermal.state = .hot) :
    e.thermalMove v = if v < (e.cfg.thermal.shutdown : Int) - e.cfg.thermal.hyst then e.leaveHot v else e := by
  simp only [Ev.thermalMove, h]

end

/-- The hold set a tier has replaces itself to no effect. -/
theorem State.held_same (s : State) (k : Fin 4) : s.held k s.tiers[k].holds = s := by
  have hno : ¬ (s.tiers[k].holds.any = false ∧ s.tiers[k].holds.any = true) :=
    fun h => Bool.noConfusion (h.1.symm.trans h.2)
  have hset : s.tiers.set k s.tiers[k] = s.tiers := by simp
  simp only [State.held, if_neg hno]
  exact congrArg (fun v => ({ s with tiers := v } : State)) hset

/-- The HEAT hold goes onto the tier in force (R144). -/
theorem Ev.placeHeat_told (e : Ev) {k : Fin 4} (hm : e.membersAside k) (htier : e.cfg.thermal.tier = k)
    (hk : e.tiers[k].holds.heat = false) :
    ∃ b, e.placeHeat
      = ({ e with thermal.holdTier := some k } : Ev).heldTold k { e.tiers[k].holds with heat := true } b := by
  rw [Ev.placeHeat, htier]
  exact Ev.placeHold_told { e with thermal.holdTier := some k } .heat hm (by decide) hk

/-- The HEAT hold goes from the tier that carries it (R144). -/
theorem Ev.dropHeat_told (e : Ev) {k : Fin 4} (hm : e.membersAside k) (htier : e.thermal.holdTier = some k)
    (hk : e.tiers[k].holds.heat = true) :
    ∃ b, e.dropHeat
      = ({ e with thermal.holdTier := none } : Ev).heldTold k { e.tiers[k].holds with heat := false } b := by
  simp only [Ev.dropHeat, htier]
  exact Ev.removeHold_told { e with thermal.holdTier := none } .heat hm (by decide) hk

/-- The occurrence that HOT's entry reports (R145). -/
def overtempAt (v : Int) : Occurrence :=
  { cause := .overtemp, value := v.toNat, latching := false, withCondition := true, action := .system }

/-- HOT is entered over an idle engine: the record, then the OVERTEMP action (R145, R155; fault source 0: log 34). -/
theorem Ev.enterHot_takesDown (e : Ev) (v : Int) {ms : Nat} (hq : e.Quiet) (h : e.snapOpens ms) :
    (({ e.toState with thermal.state := .hot } : State).occurred srcOvertemp (overtempAt v)).TakenDown
      (e.enterHot v).settle.finish .overtemp 0 .overtemp ms := by
  let x : Ev := { e with thermal.state := .hot }
  let y : Ev := { x.upd (x.occurred srcOvertemp (overtempAt v)) x.ans with act := some (srcOvertemp, .system) }
  have henter : e.enterHot v = y := by
    simp only [y]
    rw [← Ev.occurrence_eq]
    rfl
  rw [henter]
  exact Ev.settle_takesDown y (src := srcOvertemp) h (fun _ => rfl) hq.ans hq.tgtChanged hq.arb rfl

section
variable (u : State) {k : Fin 4} {v : Int} (hm : u.membersAside k)

/-- A temperature between the thresholds leaves everything as it is (R144, R145). -/
theorem Ev.thermalMove_stays
    (h : (u.thermal.state = .cool ∧ v < (u.cfg.thermal.warn : Int)) ∨
      (u.thermal.state = .warn ∧ (u.cfg.thermal.warn : Int) - u.cfg.thermal.hyst ≤ v))
    (hlow : v < (u.cfg.thermal.shutdown : Int)) : (Ev.start u).thermalMove v = Ev.start u := by
  obtain ⟨hs, hv⟩ | ⟨hs, hv⟩ := h
  · exact (Ev.thermalMove_cool _ v hs).trans ((if_neg (not_le.2 hlow)).trans (if_neg (not_le.2 hv)))
  · exact (Ev.thermalMove_warn _ v hs).trans ((if_neg (not_le.2 hlow)).trans (if_neg (not_lt.2 hv)))

/-- HOT stands above the shutdown hysteresis (R145). -/
theorem Ev.thermalMove_staysHot (hs : u.thermal.state = .hot)
    (hv : (u.cfg.thermal.shutdown : Int) - u.cfg.thermal.hyst ≤ v) : (Ev.start u).thermalMove v = Ev.start u :=
  (Ev.thermalMove_hot _ v hs).trans (if_neg (not_lt.2 hv))

/-- HOT's end, before the hold: the gate is looked at, no return being armed, and the condition ends (R144, R145). -/
theorem Ev.hotEnds_shape (x : ThermalState) (hret : u.retArmed = false) : ∃ (a : Bool) (q : List Notice),
    ((Ev.start u).gated fun e => { e with thermal.state := x }).conditionEnded srcOvertemp
      = { Ev.start u with
          thermal.state := x, notices := q, arb := a
          faults := u.faults.set srcOvertemp { u.faults[srcOvertemp] with condition := false } } := by
  obtain ⟨a, hgate⟩ := Ev.gated_unarmed (Ev.start u) (fun e => { e with thermal.state := x }) hret
  obtain ⟨q, hend⟩ := Ev.conditionEnded_shape { Ev.start u with thermal.state := x, arb := a } srcOvertemp
  refine ⟨a, q, ?_⟩
  rw [hgate]
  exact hend

/-- HOT to WARN: the condition ends and the hold stays (R145). -/
theorem Ev.thermalMove_easesToWarn (hs : u.thermal.state = .hot)
    (hv : v < (u.cfg.thermal.shutdown : Int) - u.cfg.thermal.hyst) (hret : u.retArmed = false)
    (hstill : ({ u with thermal.state := .cool } : State).still)
    (hw : (u.cfg.thermal.warn : Int) - u.cfg.thermal.hyst ≤ v) :
    ∃ q : List Notice, ((Ev.start u).thermalMove v).settle.finish
      = { u with
          thermal.state := .warn, notices := q
          faults := u.faults.set srcOvertemp { u.faults[srcOvertemp] with condition := false } } := by
  obtain ⟨a, q, hshape⟩ := Ev.hotEnds_shape u .warn hret
  have hmove : (Ev.start u).thermalMove v = _ :=
    ((Ev.thermalMove_hot _ v hs).trans (if_pos hv)).trans ((if_pos hw).trans hshape)
  let x : Ev := { Ev.start u with
    thermal.state := .warn, notices := q, arb := a
    faults := u.faults.set srcOvertemp { u.faults[srcOvertemp] with condition := false } }
  refine ⟨q, ?_⟩
  rw [hmove]
  exact congrArg Ev.finish (Ev.settle_still x rfl rfl rfl hstill)

include hm

/-- COOL to WARN: the HEAT hold and POWER (R144, R136). -/
theorem Ev.thermalMove_warms (hs : u.thermal.state = .cool) (htier : u.cfg.thermal.tier = k)
    (hk : u.tiers[k].holds.heat = false) (hv : (u.cfg.thermal.warn : Int) ≤ v)
    (hlow : v < (u.cfg.thermal.shutdown : Int)) :
    ((Ev.start u).thermalMove v).settle.finish
      = ({ u.held k { u.tiers[k].holds with heat := true } with thermal := ⟨.warn, some k⟩ } : State).powerTold := by
  obtain ⟨b, hplace⟩ := Ev.placeHeat_told (Ev.start u) hm htier hk
  have hmove : (Ev.start u).thermalMove v = { (Ev.start u).placeHeat with thermal.state := .warn } :=
    (Ev.thermalMove_cool _ v hs).trans ((if_neg (not_le.2 hlow)).trans (if_pos hv))
  rw [hmove, hplace, Ev.settle_quiet_powerTold _ (q := u.notices) rfl rfl rfl rfl rfl rfl rfl]
  rfl

/-- WARN to COOL: the HEAT hold goes, and POWER (R144, R136). -/
theorem Ev.thermalMove_cools (hs : u.thermal.state = .warn) (htier : u.thermal.holdTier = some k)
    (hk : u.tiers[k].holds.heat = true) (hv : v < (u.cfg.thermal.warn : Int) - u.cfg.thermal.hyst)
    (hlow : v < (u.cfg.thermal.shutdown : Int)) :
    ((Ev.start u).thermalMove v).settle.finish
      = ({ u.held k { u.tiers[k].holds with heat := false } with thermal := ⟨.cool, none⟩ } : State).powerTold := by
  obtain ⟨b, hdrop⟩ := Ev.dropHeat_told ({ Ev.start u with thermal.state := .cool } : Ev) hm htier hk
  have hmove : (Ev.start u).thermalMove v = ({ Ev.start u with thermal.state := .cool } : Ev).dropHeat :=
    (Ev.thermalMove_warn _ v hs).trans ((if_neg (not_le.2 hlow)).trans (if_pos hv))
  rw [hmove, hdrop, Ev.settle_quiet_powerTold _ (q := u.notices) rfl rfl rfl rfl rfl rfl rfl]
  rfl

/-- COOL or WARN to HOT: the HEAT hold, the record and the OVERTEMP action (R145). -/
theorem Ev.thermalMove_heats {ms : Nat} (hv : (u.cfg.thermal.shutdown : Int) ≤ v) (hready : u.snapReady ms)
    (h : (u.thermal.state = .cool ∧ u.cfg.thermal.tier = k ∧ u.tiers[k].holds.heat = false)
      ∨ (u.thermal.state = .warn ∧ u.thermal.holdTier = some k ∧ u.tiers[k].holds.heat = true)) :
    (({ u.held k { u.tiers[k].holds with heat := true } with thermal := ⟨.hot, some k⟩ } : State).occurred srcOvertemp
      (overtempAt v)).TakenDown ((Ev.start u).thermalMove v).settle.finish .overtemp 0 .overtemp ms := by
  have hopens : u.snapOpens ms := hready.opens
  obtain ⟨hs, htier, hk⟩ | ⟨hs, htier, hk⟩ := h
  · obtain ⟨b, hplace⟩ := Ev.placeHeat_told (Ev.start u) hm htier hk
    let e : Ev :=
      ({ Ev.start u with thermal.holdTier := some k } : Ev).heldTold k { u.tiers[k].holds with heat := true } b
    have hmove : (Ev.start u).thermalMove v = e.enterHot v :=
      ((Ev.thermalMove_cool _ v hs).trans (if_pos hv)).trans (congrArg (Ev.enterHot · v) hplace)
    obtain ⟨h1, h2, h3, h4, h5, h6, h7, h8⟩ := e.enterHot_takesDown v (ms := ms) ⟨rfl, rfl, rfl, rfl⟩ hopens
    rw [hmove]
    exact ⟨h1, h2, h3, h4, h5, h6, h7, h8⟩
  · have hmove : (Ev.start u).thermalMove v = (Ev.start u).enterHot v :=
      (Ev.thermalMove_warn _ v hs).trans (if_pos hv)
    have hheld : u.held k { u.tiers[k].holds with heat := true } = u := by
      rw [← hk]
      exact u.held_same k
    have hhot : (⟨.hot, some k⟩ : ThermalRt) = { u.thermal with state := .hot } :=
      congrArg (ThermalRt.mk .hot) htier.symm
    rw [hmove, hheld, hhot]
    exact Ev.enterHot_takesDown (Ev.start u) v (.start u) hopens

/-- HOT to COOL: the condition ends and the hold goes (R145). -/
theorem Ev.thermalMove_easesToCool (hs : u.thermal.state = .hot)
    (hv : v < (u.cfg.thermal.shutdown : Int) - u.cfg.thermal.hyst) (hret : u.retArmed = false)
    (hstill : ({ u with thermal.state := .cool } : State).still) (htier : u.thermal.holdTier = some k)
    (hk : u.tiers[k].holds.heat = true) (hw : v < (u.cfg.thermal.warn : Int) - u.cfg.thermal.hyst) :
    ∃ q : List Notice, ((Ev.start u).thermalMove v).settle.finish
      = { u.held k { u.tiers[k].holds with heat := false } with
          thermal := ⟨.cool, none⟩, notices := q
          faults := u.faults.set srcOvertemp { u.faults[srcOvertemp] with condition := false } } := by
  obtain ⟨a, q, hshape⟩ := Ev.hotEnds_shape u .cool hret
  let x : Ev := { Ev.start u with
    thermal.state := .cool, notices := q, arb := a
    faults := u.faults.set srcOvertemp { u.faults[srcOvertemp] with condition := false } }
  obtain ⟨b, hdrop⟩ := Ev.dropHeat_told x hm htier hk
  have hmove : (Ev.start u).thermalMove v = _ :=
    ((Ev.thermalMove_hot _ v hs).trans (if_pos hv)).trans
      ((if_neg (not_le.2 hw)).trans ((congrArg Ev.dropHeat hshape).trans hdrop))
  let y : Ev := ({ x with thermal.holdTier := none } : Ev).heldTold k { u.tiers[k].holds with heat := false } b
  refine ⟨y.finalNotices, ?_⟩
  rw [hmove]
  exact congrArg Ev.finish (Ev.settle_still y rfl rfl rfl hstill)

end

end Sys2Proof.Machine

namespace Sys2Proof.Machine

/-! ### The bus current limit: the two tests by their cases -/

/-- An evaluation behind the soft test: its marks are served, then the hard test and its marks (R138). -/
def Ev.afterSoft (e : Ev) (ib : Nat) : State := (e.settle.hardTest ib).settle.finish

/-- In STANDBY with an idle engine and no ride ride-through is not armed: the limit alone acts (R114, R138). -/
theorem Ev.evaluationEnd_standby (u : State) (vb ib : Nat) (hsys : u.sys = .standby) (hrun : u.run = none)
    (hride : u.ride.state = .normal) :
    ((Ev.start u).rideUse vb).evaluationEnd ib = ((Ev.start u).softTest ib).afterSoft ib := by
  have hunarmed : u.rideArmed = false := by simp [State.rideArmed, State.engineIdle, hsys, hrun]
  have hwatches : (Ev.start u).sys.watchesLimits = true := by rw [Ev.start_sys, hsys]; rfl
  rw [Ev.rideUse_normal_stays u vb hride (.inl hunarmed), Ev.evaluationEnd, Ev.settle_start, Ev.limitEvaluation,
    if_pos hwatches]
  rfl

/-- Such an evaluation as the end of the second conversion (R93). -/
theorem exec_limitEvaluation (s : State) (code : Code) {vb : Nat} (hconv : s.scan.conv = some .busCurrent)
    (hvb : s.scan.vb = some vb) (hsys : s.sys = .standby) (hrun : s.run = none) (hride : s.ride.state = .normal) :
    ∃ (sc : Scanner) (r : BudgetRec) (below : Nat), exec (.busCurrentConversion code) s
      = .next (((Ev.start (s.evaluated sc r below)).softTest code.toNat).afterSoft code.toNat) := by
  have hexec := exec_evaluation s code hconv hvb
  exact ⟨_, _, _, hexec.trans (congrArg _ (Ev.evaluationEnd_standby _ vb code.toNat hsys hrun hride))⟩

section
variable (e : Ev) (ib : Nat)

/-- The soft test in WATCH (R139). -/
theorem Ev.softTest_watch (hs : e.limit.state = .watch) (hmode : e.cfg.limit.mode ≠ .off) :
    e.softTest ib = if ib ≤ e.cfg.limit.softCode then { e with limit.softCount := 0 }
      else if e.cfg.limit.samples ≤ e.limit.softCount + 1 then e.softEvent ib
      else { e with limit.softCount := e.limit.softCount + 1 } := by
  have hsoft : e.softTest ib = e.softWatch ib := by simp only [Ev.softTest, hs]
  exact hsoft.trans (if_neg hmode)

/-- The soft test in LIMITING and NOTED: by count_M evaluations in all, or by N below release_code (R140). -/
theorem Ev.softTest_episode (hs : e.limit.state = .limiting ∨ e.limit.state = .noted) :
    let last := if e.limit.countMode = true then e.cfg.limit.countM else e.cfg.limit.samples
    e.softTest ib = if e.limit.countMode = true ∨ ib < e.cfg.limit.releaseCode then
        if last ≤ e.limit.releaseCount + 1 then e.endEpisode
        else { e with limit.releaseCount := e.limit.releaseCount + 1 }
      else { e with limit.releaseCount := 0 } := by
  intro last
  have hsoft : e.softTest ib = e.softEpisode ib := by obtain hs | hs := hs <;> simp only [Ev.softTest, hs]
  rw [hsoft, Ev.softEpisode]
  cases hc : e.limit.countMode with
  | true => simp only [last, hc, if_true, true_or]
  | false => simp only [last, hc, Bool.false_eq_true, if_false, false_or]

/-- The soft test in LATCHED (R141). -/
theorem Ev.softTest_latched (hs : e.limit.state = .latched) :
    e.softTest ib = if e.limit.softPresent then
        if ib < e.cfg.limit.releaseCode then
          if e.cfg.limit.samples ≤ e.limit.releaseCount + 1 then
            ({ e with limit.releaseCount := e.limit.releaseCount + 1, limit.softPresent := false } : Ev).limitEnded
          else { e with limit.releaseCount := e.limit.releaseCount + 1 }
        else { e with limit.releaseCount := 0 }
      else e := by
  have hsoft : e.softTest ib = e.softLatched ib := by simp only [Ev.softTest, hs]
  exact hsoft

/-- The occurrence of a hard event (R142). -/
def hardAt (ib : Nat) : Occurrence :=
  { cause := .hardLimit, value := ib, latching := false, withCondition := true, action := .system }

/-- The hard test above hard_code (R142). -/
theorem Ev.hardTest_above (hmode : e.cfg.limit.mode ≠ .off) (h : e.cfg.limit.hardCode < ib) :
    e.hardTest ib = if e.limit.hardCount + 1 < e.cfg.limit.samples then
        { e with limit.hardCount := e.limit.hardCount + 1 }
      else if e.limit.hardCount < e.cfg.limit.samples then
        ({ e with limit.hardCount := e.cfg.limit.samples, limit.hardPresent := true } : Ev).occurrenceAct srcBusCurrent
          (hardAt ib)
      else e :=
  (if_neg hmode).trans (if_pos h)

/-- The hard test at or below hard_code (R142). -/
theorem Ev.hardTest_below (hmode : e.cfg.limit.mode ≠ .off) (h : ib ≤ e.cfg.limit.hardCode) :
    e.hardTest ib = if e.limit.hardPresent then
        ({ e with limit.hardCount := 0, limit.hardPresent := false } : Ev).limitEnded
      else { e with limit.hardCount := 0, limit.hardPresent := false } :=
  (if_neg hmode).trans (if_neg (Nat.not_lt.2 h))

/-- BUS_CURRENT's condition ends with the second of its two parts (R138). -/
theorem Ev.limitEnded_absent (h1 : e.limit.softPresent = false) (h2 : e.limit.hardPresent = false) :
    e.limitEnded = e.conditionEnded srcBusCurrent := by
  simp [Ev.limitEnded, h1, h2]

/-- With no hard condition, a current not above hard_code returns the hard count to 0 and no more (R142). -/
theorem Ev.afterSoft_calm (hq : e.Quiet) (hmode : e.cfg.limit.mode ≠ .off) (h : ib ≤ e.cfg.limit.hardCode)
    (hp : e.limit.hardPresent = false) : e.afterSoft ib = { e.finish with limit.hardCount := 0 } := by
  let x : Ev := { e with limit.hardCount := 0, limit.hardPresent := false }
  have hx : x.Quiet := ⟨hq.ans, hq.tgtChanged, hq.arb, hq.act⟩
  have hhard : e.hardTest ib = x :=
    (e.hardTest_below ib hmode h).trans (if_neg (Bool.eq_false_iff.1 hp))
  have hlimit : x.limit = { e.limit with hardCount := 0 } := congrArg (fun b =>
    ({ e.limit with hardCount := 0, hardPresent := b } : LimitRt)) hp.symm
  rw [Ev.afterSoft, hq.settle, hhard, hx.settle]
  exact congrArg (fun z => ({ e.finish with limit := z } : State)) hlimit

end

/-! ### The soft event -/

/-- The occurrence of a soft event (R139). -/
def softAt (c : LimitCfg) (ib : Nat) : Occurrence :=
  { cause := .softLimit, value := ib, latching := decide (c.mode = .latch), withCondition := true, action := .none }

/-- The state with a soft event recorded, before the mode's part of it (R139). -/
def State.softRecorded (s : State) (ib : Nat) : State :=
  ({ s with limit.softPresent := true, limit.softCount := 0, limit.releaseCount := 0 } : State).occurred srcBusCurrent
    (softAt s.cfg.limit ib)

/-- The limit's record as a soft event leaves it by the mode, its hold on tier `k` (R139). -/
def LimitRt.begun (y : LimitRt) (m : LimitMode) (k : Fin 4) : LimitRt :=
  match m with
  | .level => { y with state := .limiting, countMode := false, holdTier := some k }
  | .count => { y with state := .limiting, countMode := true, holdTier := some k }
  | .latch => { y with state := .latched, holdTier := some k }
  | .report | .off => { y with state := .noted }

section
variable (u : State) (ib : Nat) {k : Fin 4}

/-- In REPORT a soft event is noted; in the other modes it places the LIMIT hold (R139). -/
theorem Ev.softEvent_eq (hmode : u.cfg.limit.mode ≠ .off)
    (htier : u.cfg.limit.mode = .report ∨ u.cfg.limit.tier = k) :
    let w := u.softRecorded ib
    let e : Ev := { Ev.start w with limit := w.limit.begun u.cfg.limit.mode k }
    (Ev.start u).softEvent ib = if u.cfg.limit.mode = .report then e else e.placeHold .limit k := by
  have hoccur : ({ Ev.start u with limit.softPresent := true, limit.softCount := 0, limit.releaseCount := 0 } :
      Ev).occurrence srcBusCurrent (softAt u.cfg.limit ib) = Ev.start (u.softRecorded ib) := Ev.occurrence_start _ _ _
  have hcfg : (Ev.start u).cfg.limit = u.cfg.limit := rfl
  intro w e
  unfold Ev.softEvent
  simp only [hcfg]
  rw [softAt] at hoccur
  rw [hoccur]
  cases hm : u.cfg.limit.mode with
  | off => exact absurd hm hmode
  | report => simp only [e, hm]; rfl
  | level | count | latch =>
    have hk : u.cfg.limit.tier = k := htier.resolve_left (by rw [hm]; decide)
    simp only [e, hm, hk]
    rfl

/-- A LIMIT hold on a tier whose rail members stay touches the tiers and the notices alone (R133, R136). -/
theorem Ev.placeLimit_shape (e : Ev) (hm : e.membersAside k) :
    ∃ (v : Vector TierRt 4) (q : List Notice) (d : Bool),
      e.placeHold .limit k = { e with tiers := v, notices := q, pwDirty := d }
      ∧ (e.tiers[k].holds.limit = false → v = (e.held k { e.tiers[k].holds with limit := true }).tiers) := by
  cases hk : e.tiers[k].holds.limit with
  | true => exact ⟨_, _, _, if_pos hk, fun h => absurd h (by decide)⟩
  | false =>
    obtain ⟨b, hplace⟩ := e.placeHold_told .limit hm (by decide) hk
    exact ⟨_, _, _, hplace, fun _ => rfl⟩

/-- A soft event to the end of its evaluation, with no hard condition and the current not above hard_code (R139). -/
theorem Ev.afterSoft_event (hm : u.membersAside k) (hmode : u.cfg.limit.mode ≠ .off)
    (htier : u.cfg.limit.mode = .report ∨ u.cfg.limit.tier = k) (hib : ib ≤ u.cfg.limit.hardCode)
    (hp : u.limit.hardPresent = false) :
    ∃ (v : Vector TierRt 4) (q : List Notice), ((Ev.start u).softEvent ib).afterSoft ib
        = { u.softRecorded ib with
            limit := { (u.softRecorded ib).limit.begun u.cfg.limit.mode k with hardCount := 0 }
            tiers := v
            notices := q }
      ∧ (u.cfg.limit.mode = .report → v = u.tiers)
      ∧ (u.cfg.limit.mode ≠ .report → u.tiers[k].holds.limit = false →
        v = (u.held k { u.tiers[k].holds with limit := true }).tiers) := by
  let w : State := u.softRecorded ib
  let e : Ev := { Ev.start w with limit := w.limit.begun u.cfg.limit.mode k }
  have hbegun : e.limit.hardPresent = false := by
    rw [← hp]
    simp only [e, LimitRt.begun]
    cases u.cfg.limit.mode <;> rfl
  obtain ⟨v, q, d, hplace, hv⟩ := Ev.placeLimit_shape e hm
  have hevent := Ev.softEvent_eq u ib hmode htier
  by_cases hr : u.cfg.limit.mode = .report
  · refine ⟨u.tiers, w.notices, ?_, fun _ => rfl, fun h => absurd hr h⟩
    rw [hevent, if_pos hr, Ev.afterSoft_calm e ib ⟨rfl, rfl, rfl, rfl⟩ hmode hib hbegun]
    rfl
  · let x : Ev := { e with tiers := v, notices := q, pwDirty := d }
    refine ⟨v, x.finalNotices, ?_, fun h => absurd h hr, fun _ => hv⟩
    rw [hevent, if_neg hr, hplace, Ev.afterSoft_calm x ib ⟨rfl, rfl, rfl, rfl⟩ hmode hib hbegun]
    rfl

end

/-! ### The end of an episode -/

/-- The limit's record as the end of an episode leaves it (R140). -/
def LimitRt.closed (y : LimitRt) : LimitRt :=
  { y with
    state := .watch, countMode := false, softCount := 0, releaseCount := 0, softPresent := false, holdTier := none }

/-- What the end of an episode makes of the tiers: NOTED holds nothing, LIMITING gives its hold back (R140). -/
def State.limitFreed (u : State) (k : Fin 4) (v : Vector TierRt 4) : Prop :=
  (u.limit.holdTier = none ∧ v = u.tiers)
    ∨ (u.limit.holdTier = some k ∧ u.tiers[k].holds.limit = true
      ∧ v = (u.held k { u.tiers[k].holds with limit := false }).tiers)

section
variable (u : State) (ib : Nat) {k : Fin 4} {v : Vector TierRt 4}

/-- The LIMIT hold is given back (R140). -/
theorem Ev.dropLimitHold_shape (hm : u.membersAside k) (hv : u.limitFreed k v) :
    ∃ (q : List Notice) (d : Bool), (Ev.start u).dropLimitHold
      = { Ev.start u with limit.holdTier := none, tiers := v, notices := q, pwDirty := d } := by
  obtain ⟨hnone, rfl⟩ | ⟨hsome, hk, rfl⟩ := hv
  · have hsame : ({ u.limit with holdTier := none } : LimitRt) = u.limit := by rw [← hnone]
    refine ⟨u.notices, false, ?_⟩
    simp only [Ev.dropLimitHold, Ev.start_limit, hnone]
    rw [hsame]
    rfl
  · obtain ⟨b, hdrop⟩ :=
      Ev.removeHold_told ({ Ev.start u with limit.holdTier := none } : Ev) .limit hm (by decide) hk
    refine ⟨enqueue u.notices .power b, true, ?_⟩
    simp only [Ev.dropLimitHold, Ev.start_limit, hsome]
    exact hdrop

/-- An episode's end to the end of its evaluation, with no hard condition and the current not above hard_code: the
condition ends (R138, R140). -/
theorem Ev.afterSoft_ended (hm : u.membersAside k) (hv : u.limitFreed k v) (hmode : u.cfg.limit.mode ≠ .off)
    (hib : ib ≤ u.cfg.limit.hardCode) (hp : u.limit.hardPresent = false) :
    ∃ q : List Notice, (Ev.start u).endEpisode.afterSoft ib
      = { u with
          limit := { u.limit.closed with hardCount := 0 }
          faults := u.faults.set srcBusCurrent { u.faults[srcBusCurrent] with condition := false }
          tiers := v
          notices := q } := by
  obtain ⟨q, d, hdrop⟩ := Ev.dropLimitHold_shape u hm hv
  let x : Ev := { Ev.start u with limit := u.limit.closed, tiers := v, notices := q, pwDirty := d }
  obtain ⟨q', hend⟩ := x.conditionEnded_shape srcBusCurrent
  let y : Ev := { x with
    faults := u.faults.set srcBusCurrent { u.faults[srcBusCurrent] with condition := false }, notices := q' }
  have hy : (Ev.start u).endEpisode = y := by
    have hx : (Ev.start u).endEpisode = x.limitEnded := by
      rw [Ev.endEpisode, hdrop]
      rfl
    exact hx.trans ((Ev.limitEnded_absent x rfl hp).trans hend)
  refine ⟨y.finalNotices, ?_⟩
  rw [hy, Ev.afterSoft_calm y ib ⟨rfl, rfl, rfl, rfl⟩ hmode hib hp]
  rfl

/-- The soft condition of a latched episode ends: the latch and its hold stand (R141). -/
theorem Ev.afterSoft_eased (hmode : u.cfg.limit.mode ≠ .off) (hib : ib ≤ u.cfg.limit.hardCode)
    (hp : u.limit.hardPresent = false) (r : Nat) :
    ∃ q : List Notice, ({ Ev.start u with limit.releaseCount := r, limit.softPresent := false } :
        Ev).limitEnded.afterSoft ib
      = { u with
          limit := { u.limit with releaseCount := r, softPresent := false, hardCount := 0 }
          faults := u.faults.set srcBusCurrent { u.faults[srcBusCurrent] with condition := false }
          notices := q } := by
  let x : Ev := { Ev.start u with limit.releaseCount := r, limit.softPresent := false }
  obtain ⟨q, hend⟩ := x.conditionEnded_shape srcBusCurrent
  let y : Ev := { x with
    faults := u.faults.set srcBusCurrent { u.faults[srcBusCurrent] with condition := false }, notices := q }
  have hy : x.limitEnded = y := (Ev.limitEnded_absent x rfl hp).trans hend
  refine ⟨q, ?_⟩
  show x.limitEnded.afterSoft ib = _
  rw [hy, Ev.afterSoft_calm y ib ⟨rfl, rfl, rfl, rfl⟩ hmode hib hp]
  rfl

end

/-! ### The hard test behind a soft test that marks nothing -/

/-- Behind a soft test that leaves `v` the hard test is taken from `v` (R138). -/
theorem Ev.afterSoft_start (v : State) (ib : Nat) :
    (Ev.start v).afterSoft ib = ((Ev.start v).hardTest ib).settle.finish := by
  rw [Ev.afterSoft, Ev.settle_start]

section
variable (v : State) (ib : Nat) (hmode : v.cfg.limit.mode ≠ .off)
include hmode

/-- Below the Nth evaluation the hard test counts (R142). -/
theorem Ev.afterSoft_hardCounts (h : v.cfg.limit.hardCode < ib) (hn : v.limit.hardCount + 1 < v.cfg.limit.samples) :
    (Ev.start v).afterSoft ib = { v with limit.hardCount := v.limit.hardCount + 1 } := by
  rw [Ev.afterSoft_start]
  exact congrArg (fun e : Ev => e.settle.finish) (((Ev.start v).hardTest_above ib hmode h).trans (if_pos hn))

/-- At N the hard count stands (R142). -/
theorem Ev.afterSoft_hardStands (h : v.cfg.limit.hardCode < ib) (hn : v.cfg.limit.samples ≤ v.limit.hardCount) :
    (Ev.start v).afterSoft ib = v := by
  have hstays : (Ev.start v).hardTest ib = Ev.start v :=
    ((Ev.start v).hardTest_above ib hmode h).trans
      ((if_neg (Nat.not_lt.2 (Nat.le_succ_of_le hn))).trans (if_neg (Nat.not_lt.2 hn)))
  rw [Ev.afterSoft_start, hstays, Ev.settle_start]
  rfl

/-- At the Nth evaluation above hard_code the hard event takes the set down (R142, R155). -/
theorem Ev.afterSoft_hardEvent {ms : Nat} (h : v.cfg.limit.hardCode < ib)
    (hlt : v.limit.hardCount < v.cfg.limit.samples) (hn : v.cfg.limit.samples ≤ v.limit.hardCount + 1)
    (hopens : v.snapOpens ms) :
    (({ v with limit.hardCount := v.cfg.limit.samples, limit.hardPresent := true } : State).occurred srcBusCurrent
      (hardAt ib)).TakenDown ((Ev.start v).afterSoft ib) .fault 12 .fault ms := by
  let x : State := ({ v with limit.hardCount := v.cfg.limit.samples, limit.hardPresent := true } : State).occurred
    srcBusCurrent (hardAt ib)
  let e : Ev := { Ev.start x with act := some (srcBusCurrent, .system) }
  have hevent : (Ev.start v).hardTest ib = e := by
    refine ((Ev.start v).hardTest_above ib hmode h).trans ((if_neg (Nat.not_lt.2 hn)).trans ((if_pos hlt).trans ?_))
    rw [Ev.occurrenceAct, Ev.occurrence_eq]
    rfl
  rw [Ev.afterSoft_start, hevent]
  exact Ev.settle_takesDown e (src := srcBusCurrent) hopens (fun _ => rfl) rfl rfl rfl rfl

/-- The first evaluation at or below hard_code ends the hard condition, and the record's with it unless the soft one
stands (R138, R142). -/
theorem Ev.afterSoft_hardEnds (h : ib ≤ v.cfg.limit.hardCode) (hp : v.limit.hardPresent = true) :
    ∃ q : List Notice, (Ev.start v).afterSoft ib
      = { v with
          limit.hardCount := 0
          limit.hardPresent := false
          faults := if v.limit.softPresent = true then v.faults
            else v.faults.set srcBusCurrent { v.faults[srcBusCurrent] with condition := false }
          notices := q } := by
  let x : Ev := { Ev.start v with limit.hardCount := 0, limit.hardPresent := false }
  have hhard : (Ev.start v).hardTest ib = x.limitEnded := ((Ev.start v).hardTest_below ib hmode h).trans (if_pos hp)
  rw [Ev.afterSoft_start, hhard]
  cases hs : v.limit.softPresent with
  | true =>
    have hx : x.limitEnded = x := if_pos (by simp [x, hs])
    rw [hx, Ev.settle_quiet x rfl rfl rfl rfl]
    exact ⟨_, rfl⟩
  | false =>
    obtain ⟨q, hend⟩ := x.conditionEnded_shape srcBusCurrent
    rw [Ev.limitEnded_absent x hs rfl, hend, Ev.settle_quiet _ rfl rfl rfl rfl]
    exact ⟨_, rfl⟩

end

/-! ### The checks, assembled -/

/-- In HOT the heat gate is closed (R145). -/
theorem State.heatOpen_hot {s : State} (h : s.thermal.state = .hot) : s.heatOpen = false := by
  rw [State.heatOpen, h]

/-- With the heat gate closed the mains gate is closed (R6). -/
theorem State.gateOpen_heat {s : State} (h : s.heatOpen = false) : s.gateOpen = false := by
  rw [State.gateOpen, h, Bool.and_false, Bool.false_and]

/-- A soft test that only writes the limit's record, with no hard condition and the current not above hard_code (R138,
R142). -/
theorem Ev.afterSoft_quiet (u v : State) (ib : Nat) (hsoft : (Ev.start u).softTest ib = Ev.start v)
    (hmode : v.cfg.limit.mode ≠ .off) (hib : ib ≤ v.cfg.limit.hardCode) (hp : v.limit.hardPresent = false) :
    ((Ev.start u).softTest ib).afterSoft ib = { v with limit.hardCount := 0 } := by
  rw [hsoft, Ev.afterSoft_calm (Ev.start v) ib (.start v) hmode hib hp, Ev.finish_start]

/-- Settles O59: the moves of the thermal checks, then the soft test by the state of the limit, then the hard test. -/
theorem heatAndCurrentPlaceHolds : Obligations.HeatAndCurrentPlaceHolds := by
  intro s code k hm n temp c l x hot takenDown
  refine ⟨fun hconv hptr hsys => ?thermal, fun hconv hvb hsys hrun hride hmode => ?limit⟩
  case thermal =>
    obtain ⟨sc, hexec⟩ := exec_temperature s code hconv hptr (SysState.watchesLimits_of hsys)
    let u : State := { s with scan := sc }
    change exec (.slowConversion code) s = .next ((Ev.start u).thermalMove temp).settle.finish at hexec
    clear_value temp
    refine ⟨fun hs htier hk hv hlow => ⟨_, hexec, ?_⟩, fun hs htier hk hv hlow => ⟨_, hexec, ?_⟩,
      fun h hlow => ⟨_, hexec, ?_⟩, fun hs hv => ⟨_, hexec, ?_⟩, fun ms hv hready h => ⟨_, hexec, ?_⟩,
      fun hs hv htier hk hret hstill => ⟨_, hexec, ?_⟩⟩
    · rw [Ev.thermalMove_warms u hm hs htier hk hv hlow]
      exact ⟨rfl, rfl, rfl, rfl, rfl⟩
    · rw [Ev.thermalMove_cools u hm hs htier hk hv hlow]
      exact ⟨rfl, rfl, rfl, rfl, rfl⟩
    · rw [Ev.thermalMove_stays u h hlow, Ev.settle_start]
      rfl
    · rw [Ev.thermalMove_staysHot u hs hv, Ev.settle_start]
      rfl
    · obtain ⟨htarget, hshut, hrun, hreqs, htiers, -, hthermal, hfaults⟩ := Ev.thermalMove_heats u hm hv hready h
      have hheat := State.heatOpen_hot (congrArg ThermalRt.state hthermal)
      exact ⟨hthermal, hheat, State.gateOpen_heat hheat, htiers, hfaults, htarget, hshut, hrun, hreqs⟩
    · by_cases hw : (c.warn : Int) - c.hyst ≤ temp
      · obtain ⟨q, hend⟩ := Ev.thermalMove_easesToWarn u hs hv hret hstill hw
        rw [hend]
        exact ⟨rfl, rfl, rfl, rfl, fun _ => ⟨congrArg (ThermalRt.mk .warn) htier, rfl⟩,
          fun h => absurd hw (not_le.2 h)⟩
      · obtain ⟨q, hend⟩ := Ev.thermalMove_easesToCool u hm hs hv hret hstill htier hk (not_le.1 hw)
        rw [hend]
        exact ⟨rfl, rfl, rfl, rfl, fun h => absurd h hw, fun _ => ⟨rfl, rfl⟩⟩
  case limit =>
    obtain ⟨vb, hvb⟩ := Option.ne_none_iff_exists'.1 hvb
    obtain ⟨sc, rec, below, hexec⟩ := exec_limitEvaluation s code hconv hvb hsys hrun hride
    intro y f soft hard quiet
    let u : State := s.evaluated sc rec below
    refine ⟨_, hexec, fun hib hp => ?soft, fun hs hcount hrel => ?hard⟩
    case soft =>
      have hquiet (z : LimitRt) (hsoft : (Ev.start u).softTest n = Ev.start { u with limit := z })
          (hz : z.hardPresent = false) : quiet (((Ev.start u).softTest n).afterSoft n) { z with hardCount := 0 } := by
        rw [Ev.afterSoft_quiet u _ n hsoft hmode hib hz]
        exact ⟨rfl, rfl, rfl, rfl⟩
      refine ⟨fun hs => ?watch, fun hs => ?episode, fun hs => ?latched⟩
      case watch =>
        have hsoft := (Ev.start u).softTest_watch n hs hmode
        refine ⟨fun hlow => hquiet { y with softCount := 0 } (hsoft.trans (if_pos hlow)) hp,
          fun hhigh hn => hquiet { y with softCount := y.softCount + 1 }
            (hsoft.trans ((if_neg (Nat.not_le.2 hhigh)).trans (if_neg (Nat.not_le.2 hn)))) hp,
          fun hhigh hn => ?_⟩
        have hevent : (Ev.start u).softTest n = (Ev.start u).softEvent n :=
          hsoft.trans ((if_neg (Nat.not_le.2 hhigh)).trans (if_pos hn))
        have hend (htier : l.mode = .report ∨ l.tier = k) := Ev.afterSoft_event u n hm hmode htier hib hp
        have hocc : (u.softRecorded n).faults = s.faults.set srcBusCurrent (f.occur .standby soft) :=
          congrArg (fun z => s.faults.set srcBusCurrent (f.occur z soft)) hsys
        rw [hevent]
        refine ⟨fun htier => ?_, fun hr => ?_, fun hr htier hk => ?_⟩
        · obtain ⟨v, q, hshape, -⟩ := hend htier
          rw [hshape]
          exact ⟨hocc, rfl⟩
        · obtain ⟨v, q, hshape, hv, -⟩ := hend (.inl hr)
          rw [hshape]
          exact ⟨congrArg (fun m => { (u.softRecorded n).limit.begun m k with hardCount := 0 }) hr, hv hr⟩
        · obtain ⟨v, q, hshape, -, hv⟩ := hend (.inr htier)
          rw [hshape]
          have hby (m : LimitMode) (h : l.mode = m) := congrArg
            (fun m => ({ (u.softRecorded n).limit.begun m k with hardCount := 0 } : LimitRt)) h
          exact ⟨hv hr hk, hby .latch, hby .level, hby .count⟩
      case episode =>
        have hsoft := (Ev.start u).softTest_episode n hs
        intro r counts last
        have hends (hc : counts) (hn : last ≤ r) : (Ev.start u).softTest n = (Ev.start u).endEpisode :=
          hsoft.trans ((if_pos hc).trans (if_pos hn))
        refine ⟨fun hc => hquiet { y with releaseCount := 0 } (hsoft.trans (if_neg hc)) hp,
          fun hc hn => hquiet { y with releaseCount := r }
            (hsoft.trans ((if_pos hc).trans (if_neg (Nat.not_le.2 hn)))) hp,
          fun hc hn _ hhold => ?_, fun hc hn _ hhold hk => ?_⟩
        · obtain ⟨q, hshape⟩ := Ev.afterSoft_ended u n hm (.inl ⟨hhold, rfl⟩) hmode hib hp
          rw [hends hc hn, hshape]
          exact ⟨⟨rfl, rfl, rfl⟩, rfl⟩
        · obtain ⟨q, hshape⟩ := Ev.afterSoft_ended u n hm (.inr ⟨hhold, hk, rfl⟩) hmode hib hp
          rw [hends hc hn, hshape]
          exact ⟨⟨rfl, rfl, rfl⟩, rfl⟩
      case latched =>
        have hsoft := (Ev.start u).softTest_latched n hs
        intro r
        refine ⟨fun ha => hquiet y (hsoft.trans (if_neg (Bool.eq_false_iff.1 ha))) hp,
          fun ha hrel => hquiet { y with releaseCount := 0 }
            (hsoft.trans ((if_pos ha).trans (if_neg (Nat.not_lt.2 hrel)))) hp,
          fun ha hrel hn => hquiet { y with releaseCount := r }
            (hsoft.trans ((if_pos ha).trans ((if_pos hrel).trans (if_neg (Nat.not_le.2 hn))))) hp,
          fun ha hrel hn => ?_⟩
        obtain ⟨q, hshape⟩ := Ev.afterSoft_eased u n hmode hib hp r
        have heased : (Ev.start u).softTest n
            = ({ Ev.start u with limit.releaseCount := r, limit.softPresent := false } : Ev).limitEnded :=
          hsoft.trans ((if_pos ha).trans ((if_pos hrel).trans (if_pos hn)))
        rw [heased, hshape]
        exact ⟨⟨rfl, rfl, rfl⟩, rfl⟩
    case hard =>
      let v : State := { u with limit.releaseCount := 0 }
      have hbreaks : ¬ (y.countMode = true ∨ n < l.releaseCode) := by
        rw [hcount]
        exact not_or.2 ⟨Bool.false_ne_true, Nat.not_lt.2 hrel⟩
      have hsoft : (Ev.start u).softTest n = Ev.start v :=
        ((Ev.start u).softTest_episode n hs).trans (if_neg hbreaks)
      rw [hsoft]
      refine ⟨fun hhard hn => ?_, fun hhard hn => ?_, fun ms hhard hlt hn hq hsup hw => ?_, fun hhard hp => ?_⟩
      · rw [Ev.afterSoft_hardCounts v n hmode hhard hn]
        exact ⟨rfl, rfl, rfl, rfl⟩
      · rw [Ev.afterSoft_hardStands v n hmode hhard hn]
        exact ⟨rfl, rfl, rfl, rfl⟩
      · obtain ⟨htarget, hshut, hrun, hreqs, htiers, hlimit, -, hfaults⟩ :=
          Ev.afterSoft_hardEvent v n hmode hhard hlt hn ⟨hrun, hq, .inl hsup, hw⟩
        have hocc : s.faults.set srcBusCurrent (f.occur s.sys hard)
            = s.faults.set srcBusCurrent (f.occur .standby hard) :=
          congrArg (fun z => s.faults.set srcBusCurrent (f.occur z hard)) hsys
        exact ⟨hlimit, htiers, hfaults.trans hocc, htarget, hshut, hrun, hreqs⟩
      · obtain ⟨q, hshape⟩ := Ev.afterSoft_hardEnds v n hmode hhard hp
        rw [hshape]
        exact ⟨rfl, rfl, rfl⟩

end Sys2Proof.Machine

namespace Sys2Proof.Machine

/-! ### Fault records under occurrences and clears -/

/-- Settles O6: every command but a part reset keeps the counts from falling, by `exec_keepMost`. -/
theorem faultCountsFallOnlyAtReset : Obligations.FaultCountsFallOnlyAtReset := by
  intro c s t i hexec hreset
  obtain ⟨u, hu, hkeep, -⟩ := exec_keepMost c hreset s
  obtain rfl : u = t := next_inj (hu.symm.trans hexec)
  exact hkeep.occ i

/-- A record is LATCHED exactly while its latch is set (R148). -/
theorem FaultRec.state_latched_iff (f : FaultRec) : f.state = .latched ↔ f.latch = true := by
  refine ⟨fun h => ?_, f.state_latched⟩
  by_contra hl
  rw [FaultRec.state, if_neg hl] at h
  split at h
  · nomatch h
  · split at h <;> nomatch h

/-- A record with no latch and no condition is STICKY where a first cause stands and CLEAR where none does (R148). -/
theorem FaultRec.state_absent (f : FaultRec) (hl : f.latch = false) (hc : f.condition = false) :
    f.state = if f.firstCause ≠ .none then .sticky else .clear := by
  simp [FaultRec.state, hl, hc]

/-- A record that is neither LATCHED nor ACTIVE has no latch and no condition (R148). -/
theorem FaultRec.absent_of_state (f : FaultRec) (h1 : f.state ≠ .latched) (h2 : f.state ≠ .active) :
    f.latch = false ∧ f.condition = false := by
  have hl : f.latch = false := Bool.eq_false_iff.2 (mt f.state_latched h1)
  exact ⟨hl, Bool.eq_false_iff.2 fun hc => h2 (f.state_active_iff.2 ⟨hl, hc⟩)⟩

section
variable (f : FaultRec) (sys : SysState) (o : Occurrence)

/-- On a CLEAR record an occurrence is the first (R150). -/
theorem FaultRec.occur_first (h : f.state = .clear) :
    (f.occur sys o).firstCause = o.cause ∧ (f.occur sys o).firstValue = o.value
      ∧ (f.occur sys o).firstState = some sys := by
  simp [FaultRec.occur, h]

/-- On any other record the first occurrence stands (R150). -/
theorem FaultRec.occur_later (h : f.state ≠ .clear) :
    (f.occur sys o).firstCause = f.firstCause ∧ (f.occur sys o).firstValue = f.firstValue
      ∧ (f.occur sys o).firstState = f.firstState := by
  simp [FaultRec.occur, h]

/-- An occurrence on a CLEAR record brings its cause, and a STICKY record has one: no first cause is lost (R150). -/
theorem FaultRec.occur_firstCause (hcause : o.cause ≠ .none) (hl : f.latch = false) (hc : f.condition = false) :
    (f.occur sys o).firstCause ≠ .none := by
  by_cases h : f.state = .clear
  · rw [(f.occur_first sys o h).1]
    exact hcause
  · rw [(f.occur_later sys o h).1]
    intro hnone
    rw [f.state_absent hl hc, hnone] at h
    exact h rfl

/-- A latch, old or new, makes the record LATCHED (R149). -/
theorem FaultRec.occur_latched (h : f.latch = true ∨ o.latching = true) : (f.occur sys o).state = .latched :=
  FaultRec.state_latched _ ((Bool.or_eq_true _ _).mpr h)

/-- Without a latch a condition, old or new, makes the record ACTIVE (R149). -/
theorem FaultRec.occur_active (hl : f.latch = false) (ho : o.latching = false)
    (h : f.condition = true ∨ o.withCondition = true) : (f.occur sys o).state = .active :=
  (FaultRec.state_active_iff _).2 ⟨(Bool.or_eq_false_iff).mpr ⟨hl, ho⟩, (Bool.or_eq_true _ _).mpr h⟩

/-- Without latch and condition an occurrence leaves the record STICKY (R149). -/
theorem FaultRec.occur_sticky (hcause : o.cause ≠ .none) (h1 : f.state ≠ .latched) (h2 : f.state ≠ .active)
    (ho : o.latching = false) (hw : o.withCondition = false) : (f.occur sys o).state = .sticky := by
  obtain ⟨hl, hc⟩ := f.absent_of_state h1 h2
  rw [FaultRec.state_absent _ (Bool.or_eq_false_iff.2 ⟨hl, ho⟩) (Bool.or_eq_false_iff.2 ⟨hc, hw⟩),
    if_pos (f.occur_firstCause sys o hcause hl hc)]

end

/-- Settles O60: the fields an occurrence writes, then the moves of the derived state. -/
theorem faultRecordsFollowTheTable : Obligations.FaultRecordsFollowTheTable := by
  intro f sys o hcause g ended
  have hunlatched (h : f.state ≠ .latched) : f.latch = false := Bool.eq_false_iff.2 (mt f.state_latched h)
  have hsticky := f.occur_sticky sys o hcause
  refine ⟨Bool.or_eq_true_iff, Bool.or_eq_true_iff, fun h => if_pos h, fun h => ?count, rfl, f.occur_first sys o,
    f.occur_later sys o, fun h => if_neg h, fun h => if_pos h, fun h => f.occur_latched sys o (.inr h), fun h => ?latched,
    fun ho hw h => f.occur_active sys o (hunlatched h) ho (.inr hw), fun ho hw h => ?clear, fun ho hw h => ?active,
    fun ho hw h => ?sticky, f.state_eased, fun h => ?ended⟩
  case count =>
    show satInc 255 f.occurrences = 255
    rw [h]
    rfl
  case latched =>
    have hl := f.state_latched_iff.1 h
    exact ⟨f.occur_latched sys o (.inl hl), FaultRec.state_latched _ hl⟩
  case clear => exact hsticky (by rw [h]; decide) (by rw [h]; decide) ho hw
  case active =>
    obtain ⟨hl, hc⟩ := f.state_active_iff.1 h
    exact f.occur_active sys o hl ho (.inl hc)
  case sticky => exact hsticky (by rw [h]; decide) (by rw [h]; decide) ho hw
  case ended =>
    show ({ f with condition := false } : FaultRec) = f
    rw [← h]

end Sys2Proof.Machine

namespace Sys2Proof.Machine

/-! ### CLEAR_FAULT of one source -/

/-- A source's byte in a CLEAR_FAULT names it (R152). -/
theorem clearArg_source (i : Fin 15) : clearArg [BitVec.ofNat 8 i.val] = some (.one i) := by
  revert i
  decide

/-- A rail's source is none of the three others (R148). -/
theorem srcRail_ne_busCurrent (r : Rail) : srcRail r ≠ srcBusCurrent :=
  fun h => absurd (congrArg Fin.val h) (Nat.ne_of_lt r.isLt)

/-- CLEAR_FAULT of an ACTIVE record is refused (R152). -/
theorem exec_clearFault_refused (s : State) (tag : Byte) (i : Fin 15) (hr : s.ready) (h1 : s.sys ≠ .starting)
    (h : s.faults[i].state = .active) : exec (.clearFault tag [BitVec.ofNat 8 i.val]) s
      = .next (s.replied ⟨0x0A, tag, [BitVec.ofNat 8 i.val]⟩ .stillActive []) := by
  refine request_dispatched 0x0A tag _ s hr h1 (r := (Ev.start s).refuse .stillActive) ?_
  show (Ev.start s).serveClearFault _ = _
  simp only [Ev.serveClearFault, clearArg_source]
  exact if_pos h

/-- CLEAR_FAULT of any other record outside STARTING and LOCKOUT: what the clear makes of the event stands, and the reply
tells the state left (R152). -/
theorem exec_clearFault_one (s : State) (tag : Byte) (i : Fin 15) (hr : s.ready) (h1 : s.sys ≠ .starting)
    (hne : s.faults[i].state ≠ .active) {e : Ev} (he : (Ev.start s).clearOne i = e) (hq : e.Quiet)
    (hsys : e.sys ≠ .lockout) : exec (.clearFault tag [BitVec.ofNat 8 i.val]) s
      = .next (e.finish.replied ⟨0x0A, tag, [BitVec.ofNat 8 i.val]⟩ .ok [codeIn faultStates e.faults[i].state]) := by
  have hexit : e.lockoutExit = e := if_neg fun h => hsys h.1
  refine request_dispatched 0x0A tag _ s hr h1 (r := ⟨e, .ok, [codeIn faultStates e.faults[i].state]⟩) ?_
  show (Ev.start s).serveClearFault _ = _
  simp only [Ev.serveClearFault, clearArg_source, Ev.start_faults, if_neg hne, he, hexit, hq.settle]

/-- A record after a clear that names it, by its state (R152, R153). -/
def FaultRec.afterClear (f : FaultRec) : FaultRec :=
  match f.state with
  | .clear | .active => f
  | .sticky => f.cleared
  | .latched => f.released

/-- A clear leaves a CLEAR record and an ACTIVE one as they are (R152). -/
theorem FaultRec.afterClear_same (f : FaultRec) (h : f.state = .clear ∨ f.state = .active) : f.afterClear = f := by
  obtain h | h := h <;> simp only [FaultRec.afterClear, h]

/-- The state with the record of a source after its clear, and FAULT queued if that changed it (R151, R152). -/
def State.clearedFault (s : State) (i : Fin 15) : State :=
  { s with
    faults := s.faults.set i s.faults[i].afterClear
    notices := if s.faults[i].state = .clear then s.notices
      else enqueue s.notices (.fault i) s.faults[i].afterClear.noticeBody }

/-- A record changed, and FAULT queued with what it then holds (R151). -/
theorem Ev.setFault_told (e : Ev) (i : Fin 15) (f : FaultRec → FaultRec) :
    (e.setFault i f).faultNotice i = { e with
      faults := e.faults.set i (f e.faults[i]), notices := enqueue e.notices (.fault i) (f e.faults[i]).noticeBody } := by
  have hget : (e.setFault i f).faults[i] = f e.faults[i] := by simp
  rw [Ev.faultNotice, hget]
  rfl

/-- A clear of a record that is not ACTIVE is told to the rail behind the record's change; the limit has no part in it
unless it is LATCHED (R141, R152, R153). -/
theorem Ev.clearOne_told (s : State) (i : Fin 15) (hne : s.faults[i].state ≠ .active)
    (hlim : i = srcBusCurrent → s.limit.state ≠ .latched) :
    (Ev.start s).clearOne i = (Ev.start (s.clearedFault i)).clearRailOf i := by
  have hrelease : (Ev.start s).releaseLimitOf i = Ev.start s := by
    unfold Ev.releaseLimitOf
    split
    · exact if_neg (hlim ‹_›)
    · rfl
  cases hs : s.faults[i].state with
  | active => exact absurd hs hne
  | clear =>
    have hsame : s.clearedFault i = s := by
      rw [State.clearedFault, FaultRec.afterClear_same _ (.inl hs), if_pos hs]
      simp
    simp only [Ev.clearOne, Ev.start_faults, hs, hsame]
  | sticky =>
    simp only [Ev.clearOne, Ev.start_faults, hs, Ev.setFault_told, State.clearedFault, FaultRec.afterClear]
    rfl
  | latched =>
    simp only [Ev.clearOne, Ev.start_faults, hs, hrelease, Ev.setFault_told, State.clearedFault, FaultRec.afterClear]
    rfl

/-- The sources 12 to 14 are no rail's (R148). -/
theorem Ev.clearRailOf_other (e : Ev) {i : Fin 15} (h : 12 ≤ i.val) : e.clearRailOf i = e :=
  dif_neg (Nat.not_lt.2 h)

/-- A rail's source is the rail's own (R148). -/
theorem Ev.clearRailOf_rail (e : Ev) (r : Rail) : e.clearRailOf (srcRail r) = e.railClear r := dif_pos r.isLt

/-- A rail's record after a clear outside FAULTED: the retry count is 0, and a drain towards FAULTED becomes one to OFF
(R42). -/
def RailRt.afterClear (x : RailRt) : RailRt :=
  if x.state = .draining ∧ x.dest = .faulted then
    { x with retryCount := 0, dest := .off, clearedInDrain := true }
  else { x with retryCount := 0 }

/-- The clear of a rail outside FAULTED (R42). -/
theorem Ev.railClear_unfaulted (s : State) {r : Rail} (h : s.rails[r].state ≠ .faulted) :
    (Ev.start s).railClear r = Ev.start (s.withRail r s.rails[r].afterClear) := by
  cases hs : s.rails[r].state with
  | faulted => exact absurd hs h
  | draining =>
    by_cases hd : s.rails[r].dest = .faulted
    · simp only [Ev.railClear, Ev.start_rails, hs, hd, RailRt.afterClear, and_self, if_true, Ev.setRail_start,
        State.withRail_get, State.withRail_withRail]
    · simp only [Ev.railClear, Ev.start_rails, hs, hd, RailRt.afterClear, and_false, if_false, Ev.setRail_start]
  | off | ramping | on | shed | retryWait =>
    simp only [Ev.railClear, Ev.start_rails, hs, RailRt.afterClear, reduceCtorEq, false_and, if_false,
      Ev.setRail_start]

/-- The clear of a rail's record that is not ACTIVE, the rail outside FAULTED (R42, R152). -/
theorem Ev.clearOne_rail (s : State) {r : Rail} (hne : s.faults[srcRail r].state ≠ .active)
    (h : s.rails[r].state ≠ .faulted) :
    (Ev.start s).clearOne (srcRail r)
      = Ev.start ((s.clearedFault (srcRail r)).withRail r s.rails[r].afterClear) := by
  rw [Ev.clearOne_told s _ hne fun hc => absurd hc (srcRail_ne_busCurrent r), Ev.clearRailOf_rail]
  exact Ev.railClear_unfaulted (s.clearedFault (srcRail r)) h

/-! ### CLEAR_FAULT of BUS_CURRENT with the limit LATCHED -/

/-- BUS_CURRENT's record once the soft condition has ended: its condition goes too unless the hard one stands (R138). -/
def State.softEnded (s : State) : FaultRec :=
  if s.limit.hardPresent = true then s.faults[srcBusCurrent]
  else { s.faults[srcBusCurrent] with condition := false }

/-- The end of the condition of a record that stays LATCHED queues nothing (R149, R151). -/
theorem Ev.conditionEnded_latched (e : Ev) {i : Fin 15} (h : e.faults[i].latch = true) :
    e.conditionEnded i = e.setFault i fun f => { f with condition := false } := by
  cases hc : e.faults[i].condition with
  | false =>
    have hsame : ({ e.faults[i] with condition := false } : FaultRec) = e.faults[i] := by rw [← hc]
    rw [Ev.conditionEnded_absent e i hc, Ev.setFault, hsame]
    simp
  | true =>
    have hstays : (e.setFault i fun f => { f with condition := false }).faults[i].state = e.faults[i].state := by
      simp only [Ev.setFault_faults, Fin.getElem_fin, Vector.getElem_set_self]
      exact (FaultRec.state_latched { e.faults[i] with condition := false } h).trans (e.faults[i].state_latched h).symm
    rw [Ev.conditionEnded, if_pos hc]
    exact if_pos hstays

/-- The end of the soft condition under a latch (R138, R141). -/
theorem Ev.limitEnded_latched (e : Ev) (h : e.limit.softPresent = false) (hl : e.faults[srcBusCurrent].latch = true) :
    e.limitEnded = { e with faults := e.faults.set srcBusCurrent e.softEnded } := by
  cases hp : e.limit.hardPresent with
  | true =>
    have hstands : e.limitEnded = e := if_pos (by rw [h, hp]; rfl)
    rw [hstands, State.softEnded, if_pos hp]
    simp
  | false =>
    rw [e.limitEnded_absent h hp, e.conditionEnded_latched hl, State.softEnded, hp, if_neg Bool.false_ne_true]
    rfl

/-- The state after the release of a latched limit that holds tier `k`: the hold goes, and the soft condition ends
(R141). -/
def State.limitReleased (s : State) (k : Fin 4) : State :=
  { s.held k { s.tiers[k].holds with limit := false } with
    limit := s.limit.closed, faults := s.faults.set srcBusCurrent s.softEnded }

/-- The release of a latched limit, told before the record's latch goes, queues POWER for the hold (R136, R141). -/
theorem Ev.limitRelease_told (s : State) {k : Fin 4} (hs : s.limit.state = .latched) (hk : s.limit.holdTier = some k)
    (hhold : s.tiers[k].holds.limit = true) (hm : s.membersAside k) (hl : s.faults[srcBusCurrent].latch = true) :
    ∃ b, (Ev.start s).limitRelease
      = { Ev.start (s.limitReleased k) with notices := enqueue s.notices .power b, pwDirty := true } := by
  obtain ⟨b, hdrop⟩ := Ev.removeHold_told ({ Ev.start s with limit.holdTier := none } : Ev) .limit hm (by decide) hhold
  have hfreed : (Ev.start s).dropLimitHold
      = ({ Ev.start s with limit.holdTier := none } : Ev).heldTold k { s.tiers[k].holds with limit := false } b := by
    simp only [Ev.dropLimitHold, Ev.start_limit, hk]
    exact hdrop
  have hrelease : (Ev.start s).limitRelease = (Ev.start s).endEpisode := if_pos hs
  let x : Ev := { Ev.start { s.held k { s.tiers[k].holds with limit := false } with limit := s.limit.closed } with
    notices := enqueue s.notices .power b, pwDirty := true }
  have hend : (Ev.start s).endEpisode = x.limitEnded := by
    rw [Ev.endEpisode, hfreed]
    rfl
  refine ⟨b, ?_⟩
  rw [hrelease, hend, Ev.limitEnded_latched x rfl hl]
  rfl

/-- CLEAR_FAULT of a latched limit's record to the end of its event: POWER with the hold gone stands before FAULT with
the latch gone (R136, R141, R153). -/
theorem Ev.clearOne_limit (s : State) {k : Fin 4} (hf : s.faults[srcBusCurrent].state = .latched)
    (hs : s.limit.state = .latched) (hk : s.limit.holdTier = some k) (hhold : s.tiers[k].holds.limit = true)
    (hm : s.membersAside k) :
    let s1 : State := { s.limitReleased k with faults := s.faults.set srcBusCurrent s.softEnded.released }
    ∃ e : Ev, (Ev.start s).clearOne srcBusCurrent = e ∧ e.Quiet
      ∧ e.finish = { s1.powerTold with
          notices := enqueue s1.powerTold.notices (.fault srcBusCurrent) s.softEnded.released.noticeBody } := by
  intro s1
  obtain ⟨b, hrelease⟩ := Ev.limitRelease_told s hs hk hhold hm ((FaultRec.state_latched_iff _).1 hf)
  let e : Ev := { Ev.start s1 with
    notices := enqueue (enqueue s.notices .power b) (.fault srcBusCurrent) s.softEnded.released.noticeBody
    pwDirty := true }
  have hrecord : (s.limitReleased k).faults[srcBusCurrent] = s.softEnded := by simp [State.limitReleased]
  have hfaults : (s.limitReleased k).faults.set srcBusCurrent s.softEnded.released
      = s.faults.set srcBusCurrent s.softEnded.released := by simp [State.limitReleased]
  refine ⟨e, ?_, ⟨rfl, rfl, rfl, rfl⟩, ?_⟩
  · have hclear : (Ev.start s).clearOne srcBusCurrent
        = (((Ev.start s).limitRelease.setFault srcBusCurrent FaultRec.released).faultNotice srcBusCurrent).clearRailOf
          srcBusCurrent := by
      simp only [Ev.clearOne, Ev.start_faults, hf, Ev.releaseLimitOf, if_true]
    rw [hclear, Ev.clearRailOf_other _ (by decide), hrelease, Ev.setFault_told]
    simp only [e, s1, Ev.start_faults, hrecord, hfaults]
    rfl
  · rw [Ev.finish_pwDirty e rfl rfl, retake_enqueue_ne (by decide), retake_enqueue]
    rfl

/-- Settles O28: the refusal of an ACTIVE record, then the clear by what else it reaches: nothing, the latched limit, the
rail. -/
theorem clearFaultActsOnTheRecord : Obligations.ClearFaultActsOnTheRecord := by
  intro s tag i hready hstart hlock b f f' n'
  have hcleared : (s.clearedFault i).faults[i] = f' := by
    simp only [State.clearedFault, Fin.getElem_fin, Vector.getElem_set_self]
    rfl
  refine ⟨exec_clearFault_refused s tag i hready hstart, fun hne hi hlim => ?other,
    fun k hi hf hs hk hhold hm => ?limit, fun r hi hne hx => ?rail⟩
  case other =>
    have hclear : (Ev.start s).clearOne i = Ev.start (s.clearedFault i) :=
      (Ev.clearOne_told s i hne fun _ => hlim).trans (Ev.clearRailOf_other _ hi)
    refine (exec_clearFault_one s tag i hready hstart hne hclear (.start _) hlock).trans ?_
    rw [Ev.start_faults, hcleared]
    rfl
  case limit =>
    subst hi
    obtain ⟨e, hclear, hquiet, hfinish⟩ := Ev.clearOne_limit s hf hs hk hhold hm
    have hne : s.faults[srcBusCurrent].state ≠ .active := by
      show f.state ≠ .active
      rw [hf]
      decide
    have hsys : e.sys = s.sys := (congrArg State.sys hfinish :)
    have hrecord : e.faults[srcBusCurrent] = s.softEnded.released := by
      rw [show e.faults = s.faults.set srcBusCurrent s.softEnded.released from (congrArg State.faults hfinish :)]
      simp
    refine (exec_clearFault_one s tag _ hready hstart hne hclear hquiet (hsys ▸ hlock)).trans ?_
    rw [hfinish, hrecord]
    rfl
  case rail =>
    subst hi
    refine (exec_clearFault_one s tag _ hready hstart hne (Ev.clearOne_rail s hne hx) (.start _) hlock).trans ?_
    have hrecord : (Ev.start ((s.clearedFault (srcRail r)).withRail r s.rails[r].afterClear)).faults[srcRail r] = f' :=
      hcleared
    rw [hrecord]
    rfl

end Sys2Proof.Machine

namespace Sys2Proof.Machine

/-! ### CLEAR_FAULT of ALL -/

/-- A clear reaches records and retry counts alone: no rail is FAULTED or DRAINING and no limit is LATCHED. -/
def State.clearsCalmly (s : State) : Prop :=
  s.limit.state ≠ .latched ∧ ∀ r : Rail, s.rails[r].state ≠ .faulted ∧ s.rails[r].state ≠ .draining

/-- `t` is `s` with the sources of `l` cleared: their records, and the retry counts of their rails unless the record is
ACTIVE (R152). -/
structure State.ClearedOver (l : List (Fin 15)) (s t : State) : Prop where
  faults : ∀ i : Fin 15, t.faults[i] = if i ∈ l then s.faults[i].afterClear else s.faults[i]
  rails : ∀ r : Rail, t.rails[r]
    = if srcRail r ∈ l ∧ s.faults[srcRail r].state ≠ .active then s.rails[r].untried else s.rails[r]
  rest : t = { s with faults := t.faults, rails := t.rails, notices := t.notices }

/-- No two rails share a source (R148). -/
theorem srcRail_injective : Function.Injective srcRail := fun _ _ h => Fin.ext (congrArg Fin.val h :)

/-- A source is a rail's or one of 12 to 14 (R148). -/
theorem srcRail_or_other (i : Fin 15) : (∃ r, i = srcRail r) ∨ 12 ≤ i.val := by
  by_cases h : i.val < 12
  · exact .inl ⟨⟨i.val, h⟩, rfl⟩
  · exact .inr (Nat.not_lt.1 h)

/-- A rail that does not drain only has its retry count set back by a clear (R42). -/
theorem RailRt.afterClear_untried (x : RailRt) (h : x.state ≠ .draining) : x.afterClear = x.untried :=
  if_neg fun hd => h hd.1

/-- The records once that of source `i` is cleared. -/
theorem State.clearedFault_get (s : State) (i j : Fin 15) :
    (s.clearedFault i).faults[j] = if j ∈ [i] then s.faults[j].afterClear else s.faults[j] := by
  by_cases h : j = i
  · subst h
    simp [State.clearedFault]
  · have hne : i.val ≠ j.val := fun hv => h (Fin.ext hv.symm)
    simp [State.clearedFault, h, hne]

/-- The rails once the record of rail `r` is written. -/
theorem State.withRail_get_or (s : State) (r q : Rail) (y : RailRt) :
    (s.withRail r y).rails[q] = if q = r then y else s.rails[q] := by
  by_cases h : q = r
  · subst h
    rw [if_pos rfl, State.withRail_get]
  · have hne : r.val ≠ q.val := fun hv => h (Fin.ext hv.symm)
    simp [State.withRail, h, hne]

/-- The clear of one source where it reaches records and retry counts alone (R152). -/
theorem Ev.clearOne_calm (s : State) (i : Fin 15) (hc : s.clearsCalmly) :
    ∃ t, (Ev.start s).clearOne i = Ev.start t ∧ s.ClearedOver [i] t := by
  obtain ⟨hlim, hrails⟩ := hc
  by_cases ha : s.faults[i].state = .active
  · refine ⟨s, by simp only [Ev.clearOne, Ev.start_faults, ha], fun j => ?_, fun r => ?_, rfl⟩
    · split
      · obtain rfl := List.mem_singleton.1 ‹_›
        exact (FaultRec.afterClear_same _ (.inr ha)).symm
      · rfl
    · refine (if_neg fun ⟨hr, hne⟩ => ?_).symm
      obtain rfl := List.mem_singleton.1 hr
      exact hne ha
  · obtain ⟨r, rfl⟩ | hi := srcRail_or_other i
    · obtain ⟨hfaulted, hdrain⟩ := hrails r
      refine ⟨_, Ev.clearOne_rail s ha hfaulted, s.clearedFault_get (srcRail r), fun q => ?_, rfl⟩
      rw [State.withRail_get_or, RailRt.afterClear_untried _ hdrain]
      by_cases hq : q = r
      · subst hq
        rw [if_pos rfl, if_pos ⟨List.mem_singleton_self _, ha⟩]
      · rw [if_neg hq, if_neg fun h => hq (srcRail_injective (List.mem_singleton.1 h.1))]
        rfl
    · refine ⟨_, (Ev.clearOne_told s i ha fun _ => hlim).trans (Ev.clearRailOf_other _ hi), s.clearedFault_get i,
        fun r => (if_neg fun h => ?_).symm, rfl⟩
      rw [← List.mem_singleton.1 h.1] at hi
      exact absurd r.isLt (Nat.not_lt.2 hi)

/-- Clears leave the rails' states and the limit as they are. -/
theorem State.ClearedOver.calm {l : List (Fin 15)} {s t : State} (h : s.ClearedOver l t) (hc : s.clearsCalmly) :
    t.clearsCalmly := by
  obtain ⟨hlim, hrails⟩ := hc
  have hlimit : t.limit = s.limit := (congrArg State.limit h.rest :)
  refine ⟨hlimit ▸ hlim, fun r => ?_⟩
  have hstate : t.rails[r].state = s.rails[r].state := by
    rw [h.rails r]
    split <;> rfl
  rw [hstate]
  exact hrails r

/-- A clear of one source and then of the sources of `l`, it not among them. -/
theorem State.ClearedOver.cons {i : Fin 15} {l : List (Fin 15)} {s u t : State} (hi : i ∉ l)
    (h : s.ClearedOver [i] u) (h' : u.ClearedOver l t) : s.ClearedOver (i :: l) t where
  faults j := by
    rw [h'.faults, h.faults]
    by_cases hj : j = i
    · subst hj
      simp [hi]
    · simp [hj]
  rails r := by
    rw [h'.rails, h.rails, h.faults]
    by_cases hr : srcRail r = i
    · simp [hr, hi]
    · simp [hr]
  rest := by
    rw [h'.rest, h.rest]

/-- Clears of several sources, one after the other: each record and each rail follows its own. -/
theorem Ev.clearOnes_calm (l : List (Fin 15)) (s : State) (hl : l.Nodup) (hc : s.clearsCalmly) :
    ∃ t, l.foldl Ev.clearOne (Ev.start s) = Ev.start t ∧ s.ClearedOver l t := by
  induction l generalizing s with
  | nil => exact ⟨s, rfl, fun _ => rfl, fun _ => (if_neg fun h => nomatch h.1).symm, rfl⟩
  | cons i l ih =>
    obtain ⟨hi, hl⟩ := List.nodup_cons.1 hl
    obtain ⟨u, hu, hone⟩ := Ev.clearOne_calm s i hc
    obtain ⟨t, ht, hrest⟩ := ih u hl (hone.calm hc)
    exact ⟨t, by rw [List.foldl_cons, hu, ht], hone.cons hi hrest⟩

/-- Every source is in the list (R148). -/
theorem mem_allSources (i : Fin 15) : i ∈ allSources := by
  revert i
  decide

/-- CLEAR_FAULT of ALL outside STARTING and LOCKOUT: what the clears leave stands, and the reply counts (R152). -/
theorem exec_clearFault_all (s t : State) (tag : Byte) {b : Byte} (hb : clearArg [b] = some .all) (hr : s.ready)
    (h1 : s.sys ≠ .starting) (ht : allSources.foldl Ev.clearOne (Ev.start s) = Ev.start t) (hsys : t.sys ≠ .lockout) :
    exec (.clearFault tag [b]) s
      = .next (t.replied ⟨0x0A, tag, [b]⟩ .ok (byte1 s.clearable ++ byte1 t.activeFaults)) := by
  have hexit : (Ev.start t).lockoutExit = Ev.start t := if_neg fun h => hsys h.1
  refine request_dispatched 0x0A tag _ s hr h1 (r := ⟨Ev.start t, .ok, byte1 s.clearable ++ byte1 t.activeFaults⟩) ?_
  show (Ev.start s).serveClearFault _ = _
  simp only [Ev.serveClearFault, hb, ht, hexit, Ev.settle_start]
  rfl

/-- Settles O30: the fifteen clears one after the other, and the counts of the reply. -/
theorem clearFaultOfAll : Obligations.ClearFaultOfAll := by
  intro s tag hready hstart hlock hlim hrails
  obtain ⟨t, ht, hover⟩ := Ev.clearOnes_calm allSources s (by decide) ⟨hlim, hrails⟩
  have hsys : t.sys = s.sys := (congrArg State.sys hover.rest :)
  refine ⟨_, exec_clearFault_all s t tag (by decide) hready hstart ht (hsys ▸ hlock), fun i => ?_, fun r hr => ?_,
    fun r hr => ?_, ?_, hsys, (congrArg State.target hover.rest :), (congrArg State.run hover.rest :),
    (congrArg State.tiers hover.rest :)⟩
  · exact (hover.faults i).trans (if_pos (mem_allSources i))
  · exact (hover.rails r).trans (if_pos ⟨mem_allSources _, hr⟩)
  · exact (hover.rails r).trans (if_neg fun h => h.2 hr)
  · simp only [State.replied, State.clearable, State.activeFaults, ← List.countP_eq_length_filter]
    rfl

end Sys2Proof.Machine

namespace Sys2Proof.Machine

/-! ### Soundness -/

/-- A part reset empties the notice queue, the fault counts and the link (R159, R172). -/
theorem State.afterReset_sound (image : Image) (pins : Pins) (now : Nat) (pending : List Instr) :
    (State.afterReset image pins now pending).Sound where
  keys := List.nodup_nil
  counts i := by simp [State.afterReset, FaultRec.reset]
  waits h := absurd rfl h
  sends := iff_of_false (fun h => h rfl) fun h => h rfl

/-- Settles O3. -/
theorem resetStateIsSound : Obligations.ResetStateIsSound := State.afterReset_sound _ _ _ _

/-- Any command keeps soundness: a part reset makes a sound state, and every other command keeps each part of it. -/
theorem exec_keepsSound (c : Instr) {s t : State} (hs : s.Sound) (ht : exec c s = .next t) : t.Sound := by
  by_cases hc : c.isReset
  · obtain ⟨inReset, checking, d, sc, hexec⟩ := exec_reset c s hc
    obtain rfl := next_inj (hexec.symm.trans ht)
    have h := State.afterReset_sound s.store.image { s.pins with inReset := inReset } s.now s.pending
    exact ⟨h.keys, h.counts, h.waits, h.sends⟩
  · obtain ⟨u, hu, hkeep, hlink⟩ := exec_keepMost c hc s
    obtain rfl := next_inj (hu.symm.trans ht)
    have hl := hlink ⟨hs.waits, hs.sends⟩
    exact ⟨hkeep.keys hs.keys, fun i => hkeep.occTop i (hs.counts i), hl.waits, hl.sends⟩

/-- Settles O4: an idle step touches nothing that soundness names, and a command keeps it by `exec_keepsSound`. -/
theorem stepKeepsSound : Obligations.StepKeepsSound := by
  intro s t hs ht
  unfold step at ht
  split at ht
  · obtain rfl := next_inj ht
    exact ⟨hs.keys, hs.counts, hs.waits, hs.sends⟩
  · rename_i c rest _
    exact exec_keepsSound c (s := { s with pending := rest }) ⟨hs.keys, hs.counts, hs.waits, hs.sends⟩ ht

end Sys2Proof.Machine

namespace Sys2Proof.Machine

/-! ### SUMMARY and ATTN_N -/

/-- The notice keys (R168). -/
def allKeys : List NoticeKey :=
  [.state, .power, .offPending, .storeDone] ++ allPlans.map .planDone ++ allSources.map .fault

theorem mem_allKeys (k : NoticeKey) : k ∈ allKeys := by
  cases k with
  | state | power | offPending | storeDone => simp [allKeys]
  | planDone p => cases p <;> simp [allKeys, allPlans]
  | fault i => simp [allKeys, mem_allSources]

/-- A queue with one notice a key holds at most 27 notices. -/
theorem length_le_of_keysDistinct {q : List Notice} (h : keysDistinct q) : q.length ≤ 27 := by
  have hle : (q.map Notice.key).length ≤ allKeys.length :=
    (List.subperm_of_subset h fun k _ => mem_allKeys k).length_le
  simpa [allKeys, allPlans, allSources] using hle

/-- A queue of at most 31 notices stands whole in the low five bits of SUMMARY, the flags in the three bits above. -/
theorem summaryNum_eq {n : Nat} (h : n < 32) (hs ride lockout : Bool) :
    summaryNum n hs ride lockout = n + 32 * hs.toNat + 64 * ride.toNat + 128 * lockout.toNat := by
  simp only [summaryNum, Nat.mod_eq_of_lt h]
  cases hs <;> cases ride <;> cases lockout <;> rfl

/-- The three flags of SUMMARY at the bits of R177. -/
theorem summaryNum_testBit {n : Nat} (h : n < 32) (hs ride lockout : Bool) :
    (summaryNum n hs ride lockout).testBit 5 = hs ∧ (summaryNum n hs ride lockout).testBit 6 = ride
      ∧ (summaryNum n hs ride lockout).testBit 7 = lockout := by
  have hbit {m : Nat} {b : Bool} (hm : m % 2 = b.toNat) : decide (m % 2 = 1) = b := by
    rw [hm]
    cases b <;> rfl
  have h5 := hs.toNat_le
  have h6 := ride.toNat_le
  have h7 := lockout.toNat_le
  simp only [summaryNum_eq h, Nat.testBit_eq_decide_div_mod_eq]
  exact ⟨hbit (by omega), hbit (by omega), hbit (by omega)⟩

/-- The bits of SUMMARY are those of its number. -/
theorem State.summary_getLsbD (s : State) {i : Nat} (hi : i < 8) :
    s.summary.getLsbD i = (summaryNum s.notices.length s.handshakeWaits (decide (s.ride.state ≠ .normal))
      (decide (s.sys = .lockout))).testBit i := by
  rw [State.summary, BitVec.getLsbD_ofNat, decide_eq_true hi, Bool.true_and]

/-- ATTN_N is asserted while a notice is queued or a handshake waits (R170). -/
theorem State.attn_iff (s : State) : s.attn = true ↔ s.notices ≠ [] ∨ ∃ d, s.waitOf = .handshake d := by
  simp [State.attn, State.handshakeWaits_iff]

/-- Settles O23: with at most 27 notices the number and the flags of SUMMARY do not overlap. -/
theorem summaryTellsWhatWaits : Obligations.SummaryTellsWhatWaits := by
  intro s hs
  have hlen := length_le_of_keysDistinct hs.keys
  have hlt : s.notices.length < 32 := by omega
  obtain ⟨h5, h6, h7⟩ := summaryNum_testBit hlt s.handshakeWaits (decide (s.ride.state ≠ .normal))
    (decide (s.sys = .lockout))
  refine ⟨hlen, ?_, ?_, ?_, ?_, s.attn_iff⟩
  · simp only [State.summary, summaryNum_eq hlt, BitVec.toNat_ofNat]
    omega
  · rw [s.summary_getLsbD (by decide), h5, s.handshakeWaits_iff]
  · rw [s.summary_getLsbD (by decide), h6, decide_eq_true_iff]
  · rw [s.summary_getLsbD (by decide), h7, decide_eq_true_iff]

end Sys2Proof.Machine

namespace Sys2Proof.Machine

/-! ### The CRC-8 (R161) -/

/-- The register before a shift: the bit shifted out shows in the lowest bit, where the polynomial has a one. -/
def crc8Unshift (v : Byte) : Byte := if v.getLsbD 0 then ((v ^^^ 0x07) >>> 1) ||| 0x80 else v >>> 1

theorem crc8Unshift_shift : ∀ v : Byte, crc8Unshift (crc8Shift v) = v := by decide

theorem crc8Shift_injective : Function.Injective crc8Shift := Function.LeftInverse.injective crc8Unshift_shift

/-- The eight shifts that take in a byte. -/
theorem crc8Byte_eq (v b : Byte) : crc8Byte v b = crc8Shift^[8] (v ^^^ b) := rfl

theorem crc8Byte_left_injective (b : Byte) : Function.Injective fun v => crc8Byte v b := fun _ _ h =>
  (BitVec.xor_left_inj b).mp (crc8Shift_injective.iterate 8 h)

theorem crc8Byte_right_injective (v : Byte) : Function.Injective (crc8Byte v) := fun _ _ h =>
  (BitVec.xor_right_inj v).mp (crc8Shift_injective.iterate 8 h)

/-- From different registers the same bytes lead to different registers. -/
theorem crc8_foldl_injective (l : List Byte) : Function.Injective fun v => l.foldl crc8Byte v := by
  induction l with
  | nil => exact Function.injective_id
  | cons b l ih => exact ih.comp (crc8Byte_left_injective b)

theorem crc8_append (a b : List Byte) : crc8 (a ++ b) = b.foldl crc8Byte (crc8 a) := List.foldl_append

/-- Settles O16: a byte's step is injective in the byte and in the register, and a byte equal to the register clears
it. -/
theorem crcShowsOneWrongByte : Obligations.CrcShowsOneWrongByte := by
  refine ⟨fun a b x y hxy h => hxy ?_, fun l => ?_⟩
  · simp only [crc8_append, List.foldl_cons, List.foldl_nil] at h
    exact crc8Byte_right_injective _ (crc8_foldl_injective b h)
  · calc crc8 (l ++ [crc8 l]) = crc8Byte (crc8 l) (crc8 l) := crc8_append l [crc8 l]
      _ = crc8Shift^[8] 0 := by rw [crc8Byte_eq, BitVec.xor_self]; rfl
      _ = 0 := by decide

end Sys2Proof.Machine

namespace Sys2Proof.Machine

/-! ### The receiver (R160) -/

/-- A request row is the arrival of its frame (log 1). -/
theorem exec_request {c : Instr} {f : Frame} (h : c.frame? = some f) (s : State) :
    exec c s = request f.kind f.tag f.body s := by
  cases c <;> cases h <;> rfl

/-- While RST_N is asserted no frame is received (log 11). -/
theorem request_inReset (f : Frame) {s : State} (h : s.pins.inReset = true) :
    request f.kind f.tag f.body s = .next s := by
  simp [request, runEvent, h]

/-- With RST_N released a request's frame reaches the buffers (R162). -/
theorem request_arrives (f : Frame) {s : State} (h : s.pins.inReset = false) :
    request f.kind f.tag f.body s = .next ((Ev.start s).frameArrives f).finish := by
  simp [request, runEvent, h]

/-- The state with the receiver at `x`, the rest as `s`. -/
def State.withRx (s : State) (x : Rx) : State := { s with link.rx := x }

@[simp] theorem State.withRx_withRx (s : State) (x y : Rx) : (s.withRx x).withRx y = s.withRx y := rfl

theorem State.withRx_self {s : State} {x : Rx} (h : s.link.rx = x) : s.withRx x = s := by
  subst h
  rfl

/-- With RST_N released a character is received. -/
theorem exec_receiveCharacter (gap : Nat) (ch : Byte) {s : State} (h : s.pins.inReset = false) :
    exec (.receiveCharacter gap ch) s = .next ((Ev.start s).character gap ch).finish := by
  simp [exec, execReceiveCharacter, runEvent, h]

section
variable {s : State} (hr : s.pins.inReset = false) {gap : Nat} (ch : Byte)
include hr

theorem exec_character_hunting (gap : Nat) (h : s.link.rx = .hunting) :
    exec (.receiveCharacter gap ch) s = .next (s.withRx (Rx.hunt ch)) := by
  rw [exec_receiveCharacter gap ch hr, Ev.character, Ev.start_link, h]
  rfl

/-- A gap over 5 ms discards the frame, and the late character is examined as a start byte. -/
theorem exec_character_late {got : List Byte} (h : s.link.rx = .inFrame got) (hg : 5000 < gap) :
    exec (.receiveCharacter gap ch) s
      = .next { s with link.rx := Rx.hunt ch, link.counts.gap := satInc 255 s.link.counts.gap } := by
  simp only [exec_receiveCharacter gap ch hr, Ev.character, Ev.start_link, h]
  rw [if_pos (show gapLimitUs < gap from hg)]
  rfl

/-- A timely character takes its place in the frame. -/
theorem exec_character_inTime {got : List Byte} (h : s.link.rx = .inFrame got) (hg : gap ≤ 5000) :
    exec (.receiveCharacter gap ch) s = .next ((Ev.start s).framed (got ++ [ch])).finish := by
  simp only [exec_receiveCharacter gap ch hr, Ev.character, Ev.start_link, h]
  rw [if_neg (show ¬ gapLimitUs < gap from Nat.not_lt.mpr hg)]

end

section
variable (s : State)

/-- A LEN above 56 discards the frame. -/
theorem Ev.framed_long {l : List Byte} (h : 56 < lenByte l) :
    (Ev.start s).framed l
      = Ev.start { s with link.rx := .hunting, link.counts.long := satInc 255 s.link.counts.long } := if_pos h

/-- Before its CRC a frame goes on. -/
theorem Ev.framed_goesOn {l : List Byte} (h : lenByte l ≤ 56) (hl : l.length < lenByte l + 4) :
    (Ev.start s).framed l = Ev.start (s.withRx (.inFrame l)) := by
  rw [Ev.framed, if_neg (Nat.not_lt.mpr h), if_pos hl]
  rfl

/-- A CRC that does not match discards the frame. -/
theorem Ev.framed_damaged {got : List Byte} {ch : Byte} (h : lenByte (got ++ [ch]) ≤ 56)
    (hl : lenByte (got ++ [ch]) + 3 ≤ got.length) (hc : ch ≠ crc8 got) :
    (Ev.start s).framed (got ++ [ch])
      = Ev.start { s with link.rx := .hunting, link.counts.crc := satInc 255 s.link.counts.crc } := by
  have hlen : ¬ (got ++ [ch]).length < lenByte (got ++ [ch]) + 4 := by simpa using hl
  have hcrc : ¬ crc8 (got ++ [ch]).dropLast = (got ++ [ch]).getLastD 0 := by simpa using hc.symm
  rw [Ev.framed, if_neg (Nat.not_lt.mpr h), if_neg hlen, if_neg hcrc]
  rfl

/-- The CRC of the bytes before it completes the frame that they spell. -/
theorem Ev.framed_completes {got : List Byte} {ch : Byte} (h : lenByte (got ++ [ch]) ≤ 56)
    (hl : lenByte (got ++ [ch]) + 3 ≤ got.length) (hc : crc8 got = ch) :
    (Ev.start s).framed (got ++ [ch])
      = (Ev.start (s.withRx .hunting)).frameArrives (Frame.ofBytes (got ++ [ch])) := by
  have hlen : ¬ (got ++ [ch]).length < lenByte (got ++ [ch]) + 4 := by simpa using hl
  have hcrc : crc8 (got ++ [ch]).dropLast = (got ++ [ch]).getLastD 0 := by simpa using hc
  rw [Ev.framed, if_neg (Nat.not_lt.mpr h), if_neg hlen, if_pos hcrc]
  rfl

end

/-- Settles O14: the hunting receiver, a late character, and a timely one by its place in the frame. -/
theorem receiverTakesACharacter : Obligations.ReceiverTakesACharacter := by
  intro s gap ch hr
  refine ⟨fun hrx => exec_character_hunting hr ch gap hrx,
    fun got hrx => ⟨fun hgap => exec_character_late hr ch hrx hgap, fun hgap hgot hlen => ?_, fun hgap hgot hlen => ?_,
      fun len l hgap hgot hlen => ⟨fun hl => ?_, fun hl hcrc => ?_⟩⟩⟩
  all_goals
    rw [exec_character_inTime hr ch hrx hgap]
    subst hgot
  · rw [Ev.framed_long s (l := [] ++ [ch]) (by simpa [lenByte] using hlen), Ev.finish_start]
  · rw [Ev.framed_goesOn s (l := [] ++ [ch]) (by simpa [lenByte] using hlen) (by simp), Ev.finish_start]
    rfl
  · rw [Ev.framed_goesOn s (l := len :: l ++ [ch]) hlen (by simpa [lenByte] using hl), Ev.finish_start]
    rfl
  · rw [Ev.framed_damaged s (got := len :: l) hlen (by simp [lenByte, hl]) hcrc, Ev.finish_start]

end Sys2Proof.Machine

namespace Sys2Proof.Machine

/-! ### The characters of a frame -/

theorem runAll_cons {c : Instr} {s t : State} (h : exec c s = .next t) (l : List Instr) :
    runAll (c :: l) s = runAll l t := by
  simp only [runAll, h]

theorem runAll_singleton (c : Instr) (s : State) : runAll [c] s = exec c s := by
  simp only [runAll]
  cases exec c s <;> rfl

/-- The bytes of a frame before its CRC, none of them late, are gathered behind those already there. -/
theorem runAll_inFrame (bytes : List Byte) (gaps : List Nat) (got : List Byte) (rest : List Instr) (s : State)
    (hn : gaps.length = bytes.length) (hg : ∀ g ∈ gaps, g ≤ 5000) (hr : s.pins.inReset = false)
    (h56 : lenByte (got ++ bytes) ≤ 56) (hlen : (got ++ bytes).length < lenByte (got ++ bytes) + 4) :
    runAll (characters gaps bytes ++ rest) (s.withRx (.inFrame got))
      = runAll rest (s.withRx (.inFrame (got ++ bytes))) := by
  induction bytes generalizing gaps got with
  | nil => simp [characters]
  | cons b bytes ih =>
    obtain _ | ⟨g, gaps⟩ := gaps
    · simp at hn
    have hhead : lenByte (got ++ [b]) = lenByte (got ++ b :: bytes) := by cases got <;> rfl
    have hshort : (got ++ [b]).length < lenByte (got ++ [b]) + 4 := by
      simp only [List.length_append, List.length_cons, List.length_nil] at *
      omega
    have hstep : exec (.receiveCharacter g b) (s.withRx (.inFrame got)) = .next (s.withRx (.inFrame (got ++ [b]))) := by
      rw [exec_character_inTime (s := s.withRx (.inFrame got)) hr b rfl (hg g (by simp)),
        Ev.framed_goesOn _ (hhead ▸ h56) hshort, Ev.finish_start, State.withRx_withRx]
    rw [List.append_cons] at h56 hlen ⊢
    calc runAll (characters (g :: gaps) (b :: bytes) ++ rest) (s.withRx (.inFrame got))
        = runAll (characters gaps bytes ++ rest) (s.withRx (.inFrame (got ++ [b]))) := runAll_cons hstep _
      _ = _ := ih gaps (got ++ [b]) (by simpa using hn) (fun x hx => hg x (by simp [hx])) h56 hlen

/-- A timely CRC that matches LEN, KIND, TAG and the body brings their frame to the buffers. -/
theorem exec_character_crc {s : State} {gap : Nat} {len kind tag ch : Byte} {body : List Byte}
    (hr : s.pins.inReset = false) (hg : gap ≤ 5000) (hx : s.link.rx = .inFrame (len :: kind :: tag :: body))
    (h56 : len.toNat ≤ 56) (hb : body.length = len.toNat) (hc : crc8 (len :: kind :: tag :: body) = ch) :
    exec (.receiveCharacter gap ch) s = request kind tag body (s.withRx .hunting) := by
  have hframe : Frame.ofBytes (len :: kind :: tag :: body ++ [ch]) = ⟨kind, tag, body⟩ := by simp [Frame.ofBytes]
  rw [exec_character_inTime hr ch hx hg,
    Ev.framed_completes s (got := len :: kind :: tag :: body) h56 (by simp [lenByte, hb]) hc, hframe]
  exact (request_arrives ⟨kind, tag, body⟩ (s := s.withRx .hunting) hr).symm

/-- Settles O15: the start byte opens the frame, the bytes up to the CRC are gathered, and the CRC brings the frame that
the request row stands for. -/
theorem charactersOfAFrameAreTheRequest : Obligations.CharactersOfAFrameAreTheRequest := by
  intro c f gaps s hf hbody hr hrx hgaps hlate
  obtain _ | ⟨first, gaps⟩ := gaps
  · simp at hgaps
  obtain rfl | ⟨gaps, last, rfl⟩ := gaps.eq_nil_or_concat'
  · simp at hgaps
  have hn : gaps.length = (frameCore f.kind f.tag f.body).length := by simp [frameCore] at *; omega
  have hlen : (BitVec.ofNat 8 f.body.length).toNat = f.body.length := by simp; omega
  have hchars : characters (first :: (gaps ++ [last])) (frameBytes f.kind f.tag f.body)
      = .receiveCharacter first startByte :: (characters gaps (frameCore f.kind f.tag f.body)
          ++ [.receiveCharacter last (crc8 (frameCore f.kind f.tag f.body))]) := by
    simp [characters, frameBytes, List.zipWith_append hn]
  have hstart : exec (.receiveCharacter first startByte) s = .next (s.withRx (.inFrame [])) :=
    exec_character_hunting hr startByte first hrx
  have hlast : exec (.receiveCharacter last (crc8 (frameCore f.kind f.tag f.body)))
      (s.withRx (.inFrame (frameCore f.kind f.tag f.body))) = exec c s := by
    refine (exec_character_crc (s := s.withRx (.inFrame (frameCore f.kind f.tag f.body))) hr (hlate last (by simp)) rfl
      (by omega) hlen.symm rfl).trans ?_
    rw [State.withRx_withRx, State.withRx_self hrx]
    exact (exec_request hf s).symm
  rw [hchars, runAll_cons hstart, runAll_inFrame _ _ [] _ s hn (fun g hg => hlate g (by simp [hg])) hr
    (by simpa [frameCore, lenByte] using by omega) (by simp [frameCore, lenByte]; omega), runAll_singleton]
  exact hlast

end Sys2Proof.Machine

namespace Sys2Proof.Machine

/-! ### The buffers (R162) -/

/-- Behind a request in service one frame waits. -/
theorem Ev.frameArrives_waits {s : State} (f : Frame) (h : s.link.service ≠ none) (hw : s.link.waiting = none) :
    (Ev.start s).frameArrives f = Ev.start { s with link.waiting := some f } := by
  rw [Ev.frameArrives, if_neg (by simpa using h), if_pos (by simpa using hw)]
  rfl

/-- A frame that finds both buffers full is discarded. -/
theorem Ev.frameArrives_overrun {s : State} (f : Frame) (h : s.link.service ≠ none) (hw : s.link.waiting ≠ none) :
    (Ev.start s).frameArrives f = Ev.start { s with link.counts.overrun := satInc 255 s.link.counts.overrun } := by
  rw [Ev.frameArrives, if_neg (by simpa using h), if_neg (by simpa using hw)]
  rfl

/-- The pulse at the end of a reply (R77). -/
theorem Ev.pulseReplySent_start (s : State) :
    (Ev.start s).pulseReplySent = Ev.start { s with pulse := s.pulseAtReplyEnd } := by
  obtain ⟨pulse, h⟩ : ∃ p, s.pulse = p := ⟨_, rfl⟩
  have hself : { s with pulse := pulse } = s := by rw [← h]
  unfold Ev.pulseReplySent State.pulseAtReplyEnd
  cases pulse with
  | armed =>
    simp only [Ev.start_pulse, h]
    rfl
  | idle | active d => simp only [Ev.start_pulse, h, hself]

/-- The end of a reply empties the service buffer and moves the pulse, whatever waits. -/
theorem Ev.pulseReplySent_emptied (s : State) :
    ({ Ev.start s with link.service := none, link.tx := [] } : Ev).pulseReplySent
      = Ev.start { s with link.service := none, link.tx := [], pulse := s.pulseAtReplyEnd } :=
  Ev.pulseReplySent_start { s with link.service := none, link.tx := [] }

/-- The end of a reply behind which no request waits. -/
theorem Ev.replySent_freed {s : State} (h : s.link.waiting = none) : (Ev.start s).replySent = Ev.start s.freed := by
  rw [Ev.replySent, Ev.pulseReplySent_emptied]
  simp only [Ev.start_link, h, State.freed]

/-- The end of a reply behind which a request waits. -/
theorem Ev.replySent_takes {s : State} {f : Frame} (h : s.link.waiting = some f) :
    (Ev.start s).replySent = (Ev.start s.freed).take f := by
  rw [Ev.replySent, Ev.pulseReplySent_emptied]
  simp only [Ev.start_link, h]
  rfl

/-- With a reply in transmission its end is taken. -/
theorem exec_replyLastCharacterSent {s : State} (h : s.link.service ≠ none) :
    exec .replyLastCharacterSent s = .next (Ev.start s).replySent.finish := by
  simp [exec, execReplyLastCharacterSent, runEvent, Option.isSome_iff_ne_none.mpr h]

/-- With no reply in transmission the reply's end has no effect (log 3). -/
theorem exec_replyLastCharacterSent_idle {s : State} (h : s.link.service = none) :
    exec .replyLastCharacterSent s = .next s := by
  simp [exec, execReplyLastCharacterSent, runEvent, h]

/-- The waiting request is taken at the end of the reply before it. -/
theorem exec_replyLastCharacterSent_takes {s : State} {f : Frame} (h : s.link.service ≠ none)
    (hw : s.link.waiting = some f) :
    exec .replyLastCharacterSent s = .next ((Ev.start s.freed).take f).finish := by
  rw [exec_replyLastCharacterSent h, Ev.replySent_takes hw]

/-- Settles O17: what the arrival of a frame finds in the buffers, and what waits at the end of a reply. -/
theorem buffersHoldTwoFrames : Obligations.BuffersHoldTwoFrames := by
  refine ⟨fun c f s hf => ?_, fun s => ⟨fun hs hw => ?_, fun c f hs hw hf hr => ?_, exec_replyLastCharacterSent_idle⟩⟩
  · rw [exec_request hf]
    refine ⟨fun hr hs hw => ?_, fun hr hs hw => ?_, request_inReset f⟩
    · rw [request_arrives f hr, Ev.frameArrives_waits f hs hw, Ev.finish_start]
    · rw [request_arrives f hr, Ev.frameArrives_overrun f hs hw, Ev.finish_start]
  · rw [exec_replyLastCharacterSent hs, Ev.replySent_freed hw, Ev.finish_start]
  · have hready : s.freed.ready := ⟨hr, rfl⟩
    rw [exec_replyLastCharacterSent_takes hs hw, exec_request hf, request_ready _ _ _ _ hready]

end Sys2Proof.Machine

namespace Sys2Proof.Machine

/-! ### Requests refused for every kind alike (R163) -/

/-- A refused request changes nothing but the link's answer. -/
theorem Ev.take_refused {s : State} {f : Frame} {st : Status} (h : (Ev.start s).served f = (Ev.start s).refuse st) :
    ((Ev.start s).take f).finish = s.replied f st [] := by
  rw [Ev.take_finish, h]
  rfl

/-- A request refused when the link is ready. -/
theorem request_refused {s : State} {f : Frame} {st : Status} (hr : s.ready)
    (h : (Ev.start s).served f = (Ev.start s).refuse st) :
    request f.kind f.tag f.body s = .next (s.replied f st []) := by
  rw [request_ready _ _ _ _ hr, Ev.take_refused h]

/-- In STARTING only IDENTIFY is served. -/
theorem Ev.served_notReady {e : Ev} {f : Frame} (hs : e.sys = .starting) (hk : f.kind ≠ 1) :
    e.served f = e.refuse .notReady := if_pos ⟨hs, hk⟩

/-- Outside STARTING a KIND that no request has is unknown. -/
theorem Ev.served_unknownKind {e : Ev} {f : Frame} (hs : e.sys ≠ .starting)
    (hk : f.kind.toNat = 0 ∨ 18 < f.kind.toNat) :
    e.served f = e.refuse .unknownKind := by
  rw [Ev.served_started e f hs]
  unfold Ev.dispatch
  split
  any_goals omega
  rfl

/-- Settles O18: the two checks, in each of the three ways in which a request is taken. -/
theorem notReadyAndUnknownKind : Obligations.NotReadyAndUnknownKind := by
  refine ⟨fun c f s hf hready hs hk => ?_,
    fun gap len kind tag ch body s hready hgap hrx hlen hbody hcrc => ?_, fun f s hserv hwait => ?_⟩
  · rw [exec_request hf, request_refused hready (Ev.served_notReady hs hk)]
  · have hheard : (s.withRx .hunting).ready := hready
    rw [exec_character_crc hready.1 hgap hrx hlen hbody hcrc]
    exact ⟨fun hs hk => request_refused (f := ⟨kind, tag, body⟩) hheard (Ev.served_notReady hs hk),
      fun hs hk => request_refused (f := ⟨kind, tag, body⟩) hheard (Ev.served_unknownKind hs hk)⟩
  · rw [exec_replyLastCharacterSent_takes hserv hwait]
    exact ⟨fun hs hk => congrArg _ (Ev.take_refused (Ev.served_notReady hs hk)),
      fun hs hk => congrArg _ (Ev.take_refused (Ev.served_unknownKind hs hk))⟩

end Sys2Proof.Machine

namespace Sys2Proof.Machine

/-! ### TAKE_NOTICES (R169) -/

/-- The number that a TAKE_NOTICES names: its one byte, or 4. -/
theorem takeCount_eq {body : List Byte} {n : Nat}
    (h : (body = [] ∧ n = 4) ∨ ∃ b : Byte, body = [b] ∧ n = b.toNat ∧ 1 ≤ n ∧ n ≤ 4) : takeCount body = some n := by
  obtain ⟨rfl, rfl⟩ | ⟨b, rfl, rfl, h1, h4⟩ := h
  · rfl
  · exact if_pos ⟨h1, h4⟩

/-- Settles O22. -/
theorem takeNoticesTakesTheOldest : Obligations.TakeNoticesTakesTheOldest := by
  intro s tag n body hready hs hn
  refine request_dispatched 0x03 tag body s hready hs
    (r := ⟨Ev.start { s with notices := s.notices.drop n }, .ok,
      BitVec.ofNat 8 (min n s.notices.length) :: (s.notices.take n).flatMap Notice.bytes⟩) ?_
  show (Ev.start s).serveTakeNotices body = _
  simp only [Ev.serveTakeNotices, takeCount_eq hn, Ev.start_notices, byte1, List.length_take]
  rfl

end Sys2Proof.Machine

namespace Sys2Proof.Machine

/-! ### What the operand forms read (R173, R177) -/

theorem oneByte_eq_some {body : List Byte} {b : Byte} (h : oneByte body = some b) : body = [b] := by
  unfold oneByte at h
  split at h
  · simpa using h
  · nomatch h

/-- A one-byte operand that is read is the body's one byte. -/
theorem oneByte_bind_eq_some {α : Type} {read : Byte → Option α} {body : List Byte} {x : α}
    (h : (oneByte body).bind read = some x) : ∃ b, body = [b] ∧ read b = some x := by
  obtain ⟨b, hb, hx⟩ := Option.bind_eq_some_iff.mp h
  exact ⟨b, oneByte_eq_some hb, hx⟩

/-- A byte that names a value of a list is a position in it. -/
theorem named_lt {α : Type} {l : List α} {b : Byte} {x : α} (h : named l b = some x) : b.toNat < l.length :=
  (List.getElem?_eq_some_iff.mp h).1

/-- A value's code is the byte that names it, in a list without repetition. -/
theorem codeIn_of_named {α : Type} [DecidableEq α] {l : List α} (hl : l.Nodup) {b : Byte} {x : α}
    (h : named l b = some x) : codeIn l x = b := by
  obtain ⟨hlt, rfl⟩ := List.getElem?_eq_some_iff.mp h
  rw [codeIn, hl.idxOf_getElem, BitVec.ofNat_toNat, BitVec.setWidth_eq]

theorem railOfByte_eq_some {b : Byte} {r : Rail} (h : railOfByte b = some r) :
    b = BitVec.ofNat 8 r.val ∧ b.toNat < 12 := by
  unfold railOfByte at h
  split at h
  · rename_i hb
    cases h
    simp [hb]
  · nomatch h

theorem fin15OfByte_lt {b : Byte} {i : Fin 15} (h : fin15OfByte b = some i) : b.toNat < 15 := by
  unfold fin15OfByte at h
  split at h
  · assumption
  · nomatch h

theorem tierOfByte_eq_some {b : Byte} {k : Fin 4} (h : tierOfByte b = some k) : b.toNat = k.val + 1 := by
  unfold tierOfByte at h
  split at h
  any_goals cases h; assumption
  nomatch h

/-- A byte is known by its number. -/
theorem byte_eq {b : Byte} {n : Nat} (h : b.toNat = n) : b = BitVec.ofNat 8 n := by
  rw [← h, BitVec.ofNat_toNat, BitVec.setWidth_eq]

theorem addressBytes_of_railGroup {r : Rail} {x : Byte} {g : Group} (h : railGroup r x = some g) :
    g.addressBytes = [0, BitVec.ofNat 8 r.val, x] := by
  unfold railGroup at h
  split at h
  case h_4 => nomatch h
  all_goals
    rename_i hx
    cases h
    rw [byte_eq hx]
    rfl

theorem addressBytes_of_planGroup {p : PlanId} {x : Byte} {g : Group} (h : planGroup p x = some g) :
    g.addressBytes = [1, codeIn allPlans p, x] := by
  unfold planGroup at h
  split at h
  · rename_i hx
    cases h
    rw [byte_eq hx]
    rfl
  · rename_i hx
    split at h
    · cases h
      have hval : BitVec.ofNat 8 (x.toNat - 1 + 1) = x := (byte_eq (by omega)).symm
      simp only [Group.addressBytes, hval]
    · nomatch h

theorem addressBytes_of_paramGroup {x : Byte} {g : Group} (h : paramGroup x = some g) :
    g.addressBytes = [5, 0, x] := by
  unfold paramGroup at h
  split at h
  case h_7 => nomatch h
  all_goals
    rename_i hx
    cases h
    rw [byte_eq hx]
    rfl

/-- Three bytes that address an entry are the entry's address bytes (R173). -/
theorem addressBytes_of_address {t i x : Byte} {g : Group} (h : address t i x = some g) :
    g.addressBytes = [t, i, x] := by
  unfold address at h
  split at h
  case h_1 ht =>
    obtain ⟨r, hr, hg⟩ := Option.bind_eq_some_iff.mp h
    rw [addressBytes_of_railGroup hg, byte_eq ht, ← (railOfByte_eq_some hr).1]
    rfl
  case h_2 ht =>
    obtain ⟨p, hp, hg⟩ := Option.bind_eq_some_iff.mp h
    rw [addressBytes_of_planGroup hg, byte_eq ht, codeIn_of_named (by decide) hp]
    rfl
  case h_3 ht =>
    obtain ⟨rfl, k, hk, rfl⟩ : x = 0 ∧ ∃ k, tierOfByte i = some k ∧ Group.tier k = g := by simpa using h
    rw [byte_eq ht, byte_eq (tierOfByte_eq_some hk)]
    rfl
  case h_4 ht =>
    obtain ⟨rfl, l, hl, rfl⟩ : x = 0 ∧ ∃ l, named lineList i = some l ∧ Group.line l = g := by simpa using h
    rw [byte_eq ht, Group.addressBytes, codeIn_of_named (by decide) hl]
    rfl
  case h_5 ht =>
    obtain ⟨rfl, w, hw, rfl⟩ : x = 0 ∧ ∃ w, named wakeList i = some w ∧ Group.wake w = g := by simpa using h
    rw [byte_eq ht, Group.addressBytes, codeIn_of_named (by decide) hw]
    rfl
  case h_6 ht =>
    obtain ⟨rfl, hg⟩ : i = 0 ∧ paramGroup x = some g := by simpa using h
    rw [byte_eq ht, addressBytes_of_paramGroup hg]
    rfl
  case h_7 => nomatch h

theorem readAddress_eq_some {body : List Byte} {g : Group} (h : readAddress body = some g) : body = g.addressBytes := by
  unfold readAddress at h
  split at h
  · exact (addressBytes_of_address h).symm
  · nomatch h

theorem editArgs_eq_some {body : List Byte} {g : Group} {l : List Byte} (h : editArgs body = some (g, l)) :
    body = g.addressBytes ++ l := by
  unfold editArgs at h
  split at h
  · rename_i t i x fields
    obtain ⟨hg, rfl⟩ : address t i x = some g ∧ fields = l := by simpa using h
    rw [addressBytes_of_address hg]
    rfl
  · nomatch h

theorem measureArgs_eq_some {body : List Byte} {i : Fin 15} {reset : Bool} (h : measureArgs body = some (i, reset)) :
    ∃ n o : Byte, n.toNat < 15 ∧ o.toNat < 2 ∧ body = [n, o] := by
  unfold measureArgs at h
  split at h
  · rename_i n o
    obtain ⟨hi, ho⟩ : fin15OfByte n = some i ∧ named noYes o = some reset := by
      simpa [Option.bind_eq_some_iff] using h
    exact ⟨n, o, fin15OfByte_lt hi, named_lt ho, rfl⟩
  · nomatch h

theorem holdArgs_eq_some {body : List Byte} {k : Fin 4} {on : Bool} (h : holdArgs body = some (k, on)) :
    ∃ n v : Byte, 1 ≤ n.toNat ∧ n.toNat ≤ 4 ∧ v.toNat < 2 ∧ body = [n, v] := by
  unfold holdArgs at h
  split at h
  · rename_i n v
    obtain ⟨hk, ho⟩ : tierOfByte n = some k ∧ named onOff v = some on := by
      simpa [Option.bind_eq_some_iff] using h
    have hn := tierOfByte_eq_some hk
    exact ⟨n, v, by omega, by omega, named_lt ho, rfl⟩
  · nomatch h

theorem takeCount_eq_some {body : List Byte} {n : Nat} (h : takeCount body = some n) :
    body = [] ∨ ∃ b : Byte, body = [b] ∧ 1 ≤ b.toNat ∧ b.toNat ≤ 4 ∧ n = b.toNat := by
  unfold takeCount at h
  split at h
  · exact .inl rfl
  · rename_i b
    split at h
    · rename_i hb
      exact .inr ⟨b, rfl, hb.1, hb.2, by simpa using h.symm⟩
    · nomatch h
  · nomatch h

theorem clearArg_eq_some {body : List Byte} {a : ClearArg} (h : clearArg body = some a) :
    ∃ b : Byte, b.toNat ≤ 15 ∧ body = [b] := by
  obtain ⟨b, rfl, hb⟩ := oneByte_bind_eq_some h
  refine ⟨b, ?_, rfl⟩
  split at hb
  · rename_i h15
    simp [h15]
  · obtain ⟨i, hi, -⟩ := Option.map_eq_some_iff.mp hb
    exact (fin15OfByte_lt hi).le

theorem serviceArg_eq_some {body : List Byte} {p : PlanId} (h : serviceArg body = some p) :
    body = [6] ∨ body = [7] := by
  obtain ⟨b, rfl, hb⟩ := oneByte_bind_eq_some h
  split at hb
  · rename_i h6
    exact .inl (by rw [h6])
  · split at hb
    · rename_i h7
      exact .inr (by rw [h7])
    · nomatch hb

/-! ### Bodies that their owner refuses (R163)

Each lemma on a bad body says that the owner's operand form reads nothing in it: what the form does read is of the
request's form, by the lemmas above. -/

theorem goArg_none {body : List Byte} (h : body ≠ [0] ∧ body ≠ [1] ∧ body ≠ [2]) :
    (oneByte body).bind (named targets) = none := by
  obtain ⟨h0, h1, h2⟩ := h
  refine Option.eq_none_iff_forall_ne_some.mpr fun t ht => ?_
  obtain ⟨n, rfl, hn⟩ := oneByte_bind_eq_some ht
  have hlt : n.toNat < 3 := named_lt hn
  obtain rfl | rfl | rfl : n = 0 ∨ n = 1 ∨ n = 2 := by bv_omega
  exacts [h0 rfl, h1 rfl, h2 rfl]

theorem takeCount_none {body : List Byte}
    (h : body ≠ [] ∧ body ≠ [1] ∧ body ≠ [2] ∧ body ≠ [3] ∧ body ≠ [4]) : takeCount body = none := by
  obtain ⟨h0, h1, h2, h3, h4⟩ := h
  refine Option.eq_none_iff_forall_ne_some.mpr fun n hn => ?_
  obtain hnil | ⟨b, rfl, hb1, hb4, -⟩ := takeCount_eq_some hn
  · exact h0 hnil
  · obtain rfl | rfl | rfl | rfl : b = 1 ∨ b = 2 ∨ b = 3 ∨ b = 4 := by bv_omega
    exacts [h1 rfl, h2 rfl, h3 rfl, h4 rfl]

theorem railArg_none {body : List Byte} (h : ∀ n : Byte, n.toNat < 12 → body ≠ [n]) :
    (oneByte body).bind railOfByte = none := by
  refine Option.eq_none_iff_forall_ne_some.mpr fun r hr => ?_
  obtain ⟨n, rfl, hn⟩ := oneByte_bind_eq_some hr
  exact h n (railOfByte_eq_some hn).2 rfl

theorem measureArgs_none {body : List Byte} (h : ∀ n o : Byte, n.toNat < 15 → o.toNat < 2 → body ≠ [n, o]) :
    measureArgs body = none := by
  refine Option.eq_none_iff_forall_ne_some.mpr fun a ha => ?_
  obtain ⟨n, o, hn, ho, rfl⟩ := measureArgs_eq_some ha
  exact h n o hn ho rfl

theorem budgetArg_none {body : List Byte} (h : body ≠ [0] ∧ body ≠ [1]) : (oneByte body).bind (named noYes) = none := by
  obtain ⟨h0, h1⟩ := h
  refine Option.eq_none_iff_forall_ne_some.mpr fun x hx => ?_
  obtain ⟨n, rfl, hn⟩ := oneByte_bind_eq_some hx
  have hlt : n.toNat < 2 := named_lt hn
  obtain rfl | rfl : n = 0 ∨ n = 1 := by bv_omega
  exacts [h0 rfl, h1 rfl]

theorem faultArg_none {body : List Byte} (h : ∀ n : Byte, n.toNat < 15 → body ≠ [n]) :
    (oneByte body).bind fin15OfByte = none := by
  refine Option.eq_none_iff_forall_ne_some.mpr fun i hi => ?_
  obtain ⟨n, rfl, hn⟩ := oneByte_bind_eq_some hi
  exact h n (fin15OfByte_lt hn) rfl

theorem clearArg_none {body : List Byte} (h : ∀ n : Byte, n.toNat ≤ 15 → body ≠ [n]) : clearArg body = none := by
  refine Option.eq_none_iff_forall_ne_some.mpr fun a ha => ?_
  obtain ⟨n, hn, rfl⟩ := clearArg_eq_some ha
  exact h n hn rfl

theorem holdArgs_none {body : List Byte}
    (h : ∀ k v : Byte, 1 ≤ k.toNat → k.toNat ≤ 4 → v.toNat < 2 → body ≠ [k, v]) : holdArgs body = none := by
  refine Option.eq_none_iff_forall_ne_some.mpr fun a ha => ?_
  obtain ⟨k, v, h1, h4, hv, rfl⟩ := holdArgs_eq_some ha
  exact h k v h1 h4 hv rfl

theorem serviceArg_none {body : List Byte} (h : body ≠ [6] ∧ body ≠ [7]) : serviceArg body = none :=
  Option.eq_none_iff_forall_ne_some.mpr fun _ hp => (serviceArg_eq_some hp).elim h.1 h.2

theorem readAddress_none {body : List Byte} (h : ∀ g : Group, body ≠ g.addressBytes) : readAddress body = none :=
  Option.eq_none_iff_forall_ne_some.mpr fun g hg => h g (readAddress_eq_some hg)

theorem editArgs_none {body : List Byte} (h : ∀ (g : Group) (l : List Byte), body ≠ g.addressBytes ++ l) :
    editArgs body = none :=
  Option.eq_none_iff_forall_ne_some.mpr fun a ha => h a.1 a.2 (editArgs_eq_some ha)

/-- The first check of each owning rule refuses a body that is not of the request's form. -/
theorem Ev.dispatch_badBody {c : Instr} {f : Frame} (hf : c.frame? = some f) (hb : c.badBody) (e : Ev) :
    e.dispatch f = e.refuse .badArgument := by
  cases c <;> cases hf
  case identify _ b => exact if_neg hb
  case go _ b =>
    show e.serveGo b = _
    simp only [Ev.serveGo, goArg_none hb]
  case takeNotices _ b =>
    show e.serveTakeNotices b = _
    simp only [Ev.serveTakeNotices, takeCount_none hb]
  case ackOff _ b => exact if_pos hb
  case readState _ b => exact if_neg hb
  case readRail _ b =>
    show e.serveReadRail b = _
    simp only [Ev.serveReadRail, railArg_none hb]
  case readMeasure _ b =>
    show e.serveReadMeasure b = _
    simp only [Ev.serveReadMeasure, measureArgs_none hb]
  case readBudget _ b =>
    show e.serveReadBudget b = _
    simp only [Ev.serveReadBudget, budgetArg_none hb]
  case readFault _ b =>
    show e.serveReadFault b = _
    simp only [Ev.serveReadFault, faultArg_none hb]
  case clearFault _ b =>
    show e.serveClearFault b = _
    simp only [Ev.serveClearFault, clearArg_none hb]
  case readShutdown _ b => exact if_neg hb
  case setHold _ b =>
    show e.serveSetHold b = _
    simp only [Ev.serveSetHold, holdArgs_none hb]
  case runService _ b =>
    show e.serveRunService b = _
    simp only [Ev.serveRunService, serviceArg_none hb]
  case resetBoard _ b => exact if_pos hb
  case readConfig _ b =>
    show e.serveReadConfig b = _
    simp only [Ev.serveReadConfig, readAddress_none hb]
  case editConfig _ b =>
    show e.serveEditConfig b = _
    simp only [Ev.serveEditConfig, editArgs_none hb]
  case store _ b =>
    have hcheck : e.storeCheck b = .badArgument := if_pos hb
    show e.serveStore b = _
    simp only [Ev.serveStore, hcheck, reduceCtorEq, if_false]
  case readLink _ b => exact if_neg hb

/-- Settles O19. -/
theorem badBodyIsRefused : Obligations.BadBodyIsRefused := by
  intro c f s hf hready hs hb
  rw [exec_request hf]
  exact request_refused hready ((Ev.served_started _ f hs).trans (Ev.dispatch_badBody hf hb _))

end Sys2Proof.Machine

namespace Sys2Proof.Machine

/-! ### The lengths of the layouts (R173, R177) -/

@[simp] theorem byte1_length (n : Nat) : (byte1 n).length = 1 := rfl
@[simp] theorem byte2_length (n : Nat) : (byte2 n).length = 2 := rfl
@[simp] theorem byte4_length (n : Nat) : (byte4 n).length = 4 := rfl
@[simp] theorem headroom2_length (h : Int) : (headroom2 h).length = 2 := rfl
@[simp] theorem flag_length (b : Bool) : (flag b).length = 1 := rfl

/-- Pairs of bytes, one for each element of a list. -/
theorem length_flatMap_pairs {α : Type} (l : List α) (f g : α → Byte) :
    (l.flatMap fun x => [f x, g x]).length = 2 * l.length := by
  induction l with
  | nil => rfl
  | cons x l ih =>
    simp only [List.flatMap_cons, List.length_append, List.length_cons, List.length_nil, ih]
    omega

/-- A group's fields are at most 22 bytes; but for a tier's, their number is in the layout. -/
theorem Tables.fields_length (t : Tables) (g : Group) : (t.fields g).length ≤ 22 := by
  cases g with
  | tier k =>
    show (tierBytes t.tiers[k]).length ≤ 22
    rw [tierBytes, length_flatMap_pairs, Vector.length_toList]
    decide
  | sense | timing | policy | header | step | line | wake | budget | ride | limit | thermal | lock | system =>
    exact Nat.le_of_ble_eq_true rfl

theorem State.tableMembers_length (s : State) (t : Fin 4) : (s.tableMembers t).length ≤ 12 :=
  List.length_filter_le _ allRails

/-- A runtime view is at most 28 bytes: a tier's shows its members, a line's its source; the others are fixed. -/
theorem State.view_length (s : State) (g : Group) : (s.view g).length ≤ 28 := by
  cases g with
  | tier k =>
    have h := s.tableMembers_length k
    simp only [State.view, State.tierView, length_flatMap_pairs, List.length_append, List.length_cons, List.length_nil,
      flag_length, byte2_length]
    omega
  | line l =>
    have h : (s.lineSource l).bytes.length = 2 := by cases s.lineSource l <;> rfl
    simp only [State.view, State.lineView, List.length_append, List.length_cons, List.length_nil, h]
    omega
  | sense | timing | policy | header | step | wake | budget | ride | limit | thermal | lock | system =>
    exact Nat.le_of_ble_eq_true rfl

theorem State.configRecord_length (s : State) (g : Group) : (s.configRecord g).length ≤ 50 := by
  have h1 := s.tables.fields_length g
  have h2 := s.view_length g
  rw [State.configRecord, List.length_append]
  omega

@[simp] theorem State.identifyBody_length (s : State) : s.identifyBody.length = 5 := rfl
@[simp] theorem State.railRecord_length (s : State) (r : Rail) : (s.railRecord r).length = 15 := rfl
@[simp] theorem State.measureRecord_length (s : State) (i : Fin 15) : (s.measureRecord i).length = 21 := rfl
@[simp] theorem State.budgetRecord_length (s : State) : s.budgetRecord.length = 34 := by
  simp [State.budgetRecord]
@[simp] theorem State.faultRecord_length (s : State) (i : Fin 15) : (s.faultRecord i).length = 11 := rfl
@[simp] theorem ShutdownRec.bytes_length (x : ShutdownRec) : x.bytes.length = 14 := rfl
@[simp] theorem LinkCounts.bytes_length (x : LinkCounts) : x.bytes.length = 4 := rfl

@[simp] theorem State.stateRecord_length (s : State) : s.stateRecord.length = 15 := by
  unfold State.stateRecord State.runBytes
  split <;> rfl

/-- A notice is 12 bytes. -/
theorem Notice.bytes_length (x : Notice) : x.bytes.length = 12 := by
  have hkey : x.key.bytes.length = 2 := by cases x.key <;> rfl
  have hbody : x.body.bytes.length ≤ 10 := by cases x.body <;> exact Nat.le_of_ble_eq_true rfl
  simp only [Notice.bytes, padTo, List.length_append, List.length_replicate, hkey]
  omega

theorem flatMap_notices_length (q : List Notice) : (q.flatMap Notice.bytes).length = 12 * q.length := by
  simp [List.length_flatMap, Notice.bytes_length, Nat.mul_comm]

/-! ### The lengths of the replies (R164) -/

theorem Ev.serveTakeNotices_length (e : Ev) (body : List Byte) : (e.serveTakeNotices body).body.length ≤ 49 := by
  unfold Ev.serveTakeNotices
  split
  · exact Nat.zero_le _
  · rename_i n hn
    have h4 : n ≤ 4 := by
      obtain hnil | ⟨b, -, -, hb, rfl⟩ := takeCount_eq_some hn
      · subst hnil
        exact (Option.some.inj hn).ge
      · exact hb
    simp only [List.length_append, byte1_length, flatMap_notices_length, List.length_take]
    omega

/-- A refusal has no reply body, whatever bounds the others. -/
theorem Ev.refuse_length (e : Ev) (st : Status) (n : Nat) : (e.refuse st).body.length ≤ n := Nat.zero_le n

theorem Ev.serveGo_length (e : Ev) (body : List Byte) : (e.serveGo body).body.length ≤ 2 := by
  unfold Ev.serveGo
  split
  · exact e.refuse_length _ _
  · split
    any_goals exact e.refuse_length _ _
    all_goals
      split
      · exact e.refuse_length _ _
      · exact le_rfl

theorem Ev.serveClearFault_length (e : Ev) (body : List Byte) : (e.serveClearFault body).body.length ≤ 2 := by
  unfold Ev.serveClearFault
  split
  · exact e.refuse_length _ _
  · split
    · exact e.refuse_length _ _
    · exact Nat.le_succ 1
  · exact le_rfl

theorem Ev.serveRunService_length (e : Ev) (body : List Byte) : (e.serveRunService body).body.length ≤ 0 := by
  unfold Ev.serveRunService
  repeat' split
  all_goals exact le_rfl

theorem Ev.serveEditConfig_length (e : Ev) (body : List Byte) : (e.serveEditConfig body).body.length ≤ 50 := by
  unfold Ev.serveEditConfig
  repeat' split
  any_goals exact e.refuse_length _ _
  exact State.configRecord_length _ _

/-- Whatever serves a request, its reply body is at most 50 bytes long. -/
theorem Ev.dispatch_length (e : Ev) (f : Frame) : (e.dispatch f).body.length ≤ 50 := by
  have hrefuse (st : Status) : (e.refuse st).body.length ≤ 50 := e.refuse_length st 50
  unfold Ev.dispatch
  split
  · unfold Ev.serveIdentify; split <;> simp [Ev.tell, hrefuse]
  · exact (e.serveGo_length _).trans (by decide)
  · exact (e.serveTakeNotices_length _).trans (by decide)
  · unfold Ev.serveAckOff; repeat' split
    all_goals simp [hrefuse]
  · unfold Ev.serveReadState; split <;> simp [Ev.tell, hrefuse]
  · unfold Ev.serveReadRail; split <;> simp [Ev.tell, hrefuse]
  · unfold Ev.serveReadMeasure; split <;> simp [hrefuse]
  · unfold Ev.serveReadBudget; split <;> simp [hrefuse]
  · unfold Ev.serveReadFault; split <;> simp [Ev.tell, hrefuse]
  · exact (e.serveClearFault_length _).trans (by decide)
  · unfold Ev.serveReadShutdown; split <;> simp [Ev.tell, hrefuse]
  · unfold Ev.serveSetHold; split <;> simp [hrefuse]
  · exact (e.serveRunService_length _).trans (by decide)
  · unfold Ev.serveResetBoard; repeat' split
    all_goals simp [hrefuse]
  · unfold Ev.serveReadConfig
    split
    · exact e.configRecord_length _
    · exact hrefuse _
  · exact e.serveEditConfig_length _
  · unfold Ev.serveStore; split <;> simp [hrefuse]
  · unfold Ev.serveReadLink; split <;> simp [hrefuse]
  · exact hrefuse _

theorem Ev.served_length (e : Ev) (f : Frame) : (e.served f).body.length ≤ 50 := by
  unfold Ev.served
  split
  · exact e.refuse_length _ _
  · exact e.dispatch_length f

/-- A reply is seven characters longer than its reply body: start byte, LEN, KIND, TAG, STATUS, SUMMARY and CRC. -/
theorem replyBytes_length (kind tag : Byte) (st : Status) (summary : Byte) (body : List Byte) :
    (replyBytes kind tag st summary body).length = body.length + 7 := by
  simp [replyBytes, frameBytes, frameCore]

theorem Ev.take_length (e : Ev) (f : Frame) : (e.take f).link.tx.length ≤ 61 := by
  have h := e.served_length f
  calc (e.take f).link.tx.length = (e.served f).body.length + 7 := replyBytes_length _ _ _ _ _
    _ ≤ 61 := by omega

/-! ### The transmitter through the link's events -/

section
variable {e : Ev} (h : e.link.tx.length ≤ 61)
include h

theorem Ev.frameArrives_length (f : Frame) : (e.frameArrives f).link.tx.length ≤ 61 := by
  unfold Ev.frameArrives
  split
  · exact e.take_length f
  · split <;> exact h

theorem Ev.character_length (gap : Nat) (ch : Byte) : (e.character gap ch).link.tx.length ≤ 61 := by
  unfold Ev.character
  split
  · exact h
  · split
    · exact h
    · unfold Ev.framed
      split
      · exact h
      · split
        · exact h
        · split
          · exact Ev.frameArrives_length (e := { e with link.rx := .hunting }) h _
          · exact h

end

/-- While RST_N is asserted no character is received (log 11). -/
theorem exec_receiveCharacter_inReset (gap : Nat) (ch : Byte) {s : State} (h : s.pins.inReset = true) :
    exec (.receiveCharacter gap ch) s = .next s := by
  simp [exec, execReceiveCharacter, runEvent, h]

theorem Ev.replySent_length (s : State) : (Ev.start s).replySent.link.tx.length ≤ 61 := by
  cases hw : s.link.waiting with
  | none =>
    rw [Ev.replySent_freed hw]
    exact Nat.zero_le _
  | some f =>
    rw [Ev.replySent_takes hw]
    exact Ev.take_length _ f

/-- Settles O24: a part reset empties the transmitter, a command that takes no request leaves it, and a taken request
fills it with a reply of `Ev.take_length`. -/
theorem repliesFitTheFrame : Obligations.RepliesFitTheFrame := by
  intro c s t hs ht
  by_cases hreset : c.isReset
  · obtain ⟨_, _, _, _, hexec⟩ := exec_reset c s hreset
    obtain rfl := next_inj (hexec.symm.trans ht)
    exact Nat.zero_le _
  by_cases hl : linkCommand c
  swap
  · obtain ⟨u, hu, hkeep⟩ := exec_keep c hreset hl s
    obtain rfl := next_inj (hu.symm.trans ht)
    rwa [hkeep.tx]
  obtain hframe | ⟨gap, ch, rfl⟩ | rfl := hl
  · obtain ⟨f, hf⟩ := Option.isSome_iff_exists.mp hframe
    rw [exec_request hf] at ht
    cases hr : s.pins.inReset with
    | true =>
      obtain rfl := next_inj ((request_inReset f hr).symm.trans ht)
      exact hs
    | false =>
      obtain rfl := next_inj ((request_arrives f hr).symm.trans ht)
      exact Ev.frameArrives_length (e := Ev.start s) hs f
  · cases hr : s.pins.inReset with
    | true =>
      obtain rfl := next_inj ((exec_receiveCharacter_inReset gap ch hr).symm.trans ht)
      exact hs
    | false =>
      obtain rfl := next_inj ((exec_receiveCharacter gap ch hr).symm.trans ht)
      exact Ev.character_length (e := Ev.start s) hs gap ch
  · by_cases hserv : s.link.service = none
    · obtain rfl := next_inj ((exec_replyLastCharacterSent_idle hserv).symm.trans ht)
      exact hs
    · obtain rfl := next_inj ((exec_replyLastCharacterSent hserv).symm.trans ht)
      exact Ev.replySent_length s

end Sys2Proof.Machine

namespace Sys2Proof.Machine

/-! ### The addresses of the entries (R173) -/

/-- Settles O36: both directions by the readings of an address's bytes. -/
theorem addressesAreOneToOne : Obligations.AddressesAreOneToOne :=
  ⟨readAddress_addressBytes, fun _ _ _ _ => addressBytes_of_address⟩

/-! ### The operand forms, written and read back (R173, R177) -/

/-- A number within one byte is read as it was written. -/
theorem toNat_ofNat_byte {n : Nat} (h : n ≤ 255) : (BitVec.ofNat 8 n).toNat = n := by
  rw [BitVec.toNat_ofNat]
  omega

/-- A number within two bytes is read as it was written. -/
theorem num2_byte2 {n : Nat} (h : n ≤ 65535) : num2 (BitVec.ofNat 8 (n / 256)) (BitVec.ofNat 8 n) = n := by
  simp only [num2, BitVec.toNat_ofNat]
  omega

/-- A byte read as a number is written as that byte. -/
@[simp] theorem byte1_toNat (b : Byte) : byte1 b.toNat = [b] := by
  simp [byte1]

/-- Two bytes read as a number are written as those bytes. -/
@[simp] theorem byte2_num2 (hi lo : Byte) : byte2 (num2 hi lo) = [hi, lo] := by
  have hhi : BitVec.ofNat 8 (num2 hi lo / 256) = hi := by
    rw [num2]
    bv_omega
  have hlo : BitVec.ofNat 8 (num2 hi lo) = lo := by
    rw [num2]
    bv_omega
  rw [byte2, hhi, hlo]

/-- A value's code names the value. -/
theorem named_codeIn {α : Type} [DecidableEq α] {l : List α} (hl : l.length ≤ 256) {x : α} (h : x ∈ l) :
    named l (codeIn l x) = some x := by
  have hlt : l.idxOf x < l.length := List.idxOf_lt_length_of_mem h
  rw [named, codeIn, toNat_ofNat_byte (by omega), List.getElem?_eq_getElem hlt, List.getElem_idxOf]

/-! A list that holds every value of its type names each by its code. -/

@[simp] theorem named_yesNo (b : Bool) : named yesNo (codeIn yesNo b) = some b :=
  named_codeIn (by decide) (by cases b <;> decide)

@[simp] theorem named_onOff (b : Bool) : named onOff (codeIn onOff b) = some b :=
  named_codeIn (by decide) (by cases b <;> decide)

@[simp] theorem named_levels (x : Level) : named levels (codeIn levels x) = some x :=
  named_codeIn (by decide) (by cases x <;> decide)

@[simp] theorem named_monitors (x : Monitor) : named monitors (codeIn monitors x) = some x :=
  named_codeIn (by decide) (by cases x <;> decide)

@[simp] theorem named_retryLimits (x : RetryLimit) : named retryLimits (codeIn retryLimits x) = some x :=
  named_codeIn (by decide) (by cases x <;> decide)

@[simp] theorem named_faultModes (x : FaultMode) : named faultModes (codeIn faultModes x) = some x :=
  named_codeIn (by decide) (by cases x <;> decide)

@[simp] theorem named_railActions (x : RailAction) : named railActions (codeIn railActions x) = some x :=
  named_codeIn (by decide) (by cases x <;> decide)

@[simp] theorem named_homes (x : Home) : named homes (codeIn homes x) = some x :=
  named_codeIn (by decide) (by cases x <;> decide)

@[simp] theorem named_stepKinds (x : StepKind) : named stepKinds (codeIn stepKinds x) = some x :=
  named_codeIn (by decide) (by cases x <;> decide)

@[simp] theorem named_onMisses (x : OnMiss) : named onMisses (codeIn onMisses x) = some x :=
  named_codeIn (by decide) (by cases x <;> decide)

@[simp] theorem named_limitModes (x : LimitMode) : named limitModes (codeIn limitModes x) = some x :=
  named_codeIn (by decide) (by cases x <;> decide)

@[simp] theorem named_railTiers (k : Fin 5) : named railTiers (codeIn railTiers k) = some k :=
  named_codeIn (by decide) (by revert k; decide)

/-- A wake line's target is any but STANDBY (R12). -/
theorem named_wakeTargets {g : Target} (h : g ≠ .standby) : named wakeTargets (codeIn wakeTargets g) = some g :=
  named_codeIn (by decide) (by cases g <;> simp_all [wakeTargets])

/-- The auto-on target is any but PANEL_ON (R173). -/
theorem named_autoOnTargets {g : Target} (h : g ≠ .panelOn) :
    named autoOnTargets (codeIn autoOnTargets g) = some g :=
  named_codeIn (by decide) (by cases g <;> simp_all [autoOnTargets])

/-- A tier's byte names the tier. -/
@[simp] theorem tierOfByte_tierByte (k : Fin 4) : tierOfByte (tierByte k) = some k := by
  revert k
  decide

/-- A byte that names a tier is that tier's byte. -/
theorem tierByte_of_tierOfByte {b : Byte} {k : Fin 4} (h : tierOfByte b = some k) : tierByte k = b :=
  (byte_eq (tierOfByte_eq_some h)).symm

end Sys2Proof.Machine

namespace Sys2Proof.Machine

/-! ### Tables within their ranges (R174, R176) -/

/-- Every entry lies in its range and the rules between fields hold, entry by entry (R174). -/
structure Tables.Ranges (t : Tables) : Prop where
  rails : ∀ r : Rail, t.rails[r].ok = true
  plans : ∀ p : PlanId, (t.plan p).ok p = true
  tiers : ∀ k : Fin 4, tierOk t.tiers[k] = true
  wakes : ∀ w : WakeLine, (t.wake w).ok = true
  budget : t.budget.ok = true
  ride : t.ride.ok = true
  limit : t.limit.ok = true
  thermal : t.thermal.ok = true
  lock : t.lock.ok = true
  system : t.system.ok = true

/-- A test of every element of a vector is one of each index. -/
theorem all_toList_iff {α : Type} {n : Nat} {v : Vector α n} {ok : α → Bool} :
    v.toList.all ok = true ↔ ∀ i : Fin n, ok v[i] = true := by
  rw [List.all_eq_true]
  constructor
  · exact fun h i => h _ (by simp)
  · intro h x hx
    obtain ⟨i, hi, rfl⟩ := Vector.mem_iff_getElem.1 (Vector.mem_toList_iff.1 hx)
    exact h ⟨i, hi⟩

theorem mem_allPlans (p : PlanId) : p ∈ allPlans := by cases p <;> decide

/-- The image check's third condition is that every entry is in range (R176). -/
theorem Tables.ok_iff (t : Tables) : t.ok = true ↔ t.Ranges := by
  have hplans : allPlans.all (fun p => (t.plans[p.idx]).ok p) = true ↔ ∀ p, (t.plan p).ok p = true := by
    rw [List.all_eq_true]
    exact ⟨fun h p => h p (mem_allPlans p), fun h p _ => h p⟩
  have hwakes : t.wakes.toList.all WakeCfg.ok = true ↔ ∀ w, (t.wake w).ok = true := by
    rw [all_toList_iff]
    constructor
    · exact fun h w => h (wakeIdx w)
    · intro h i
      fin_cases i
      exacts [h .key, h .ir, h .aux]
  simp only [Tables.ok, Bool.and_eq_true, all_toList_iff, hplans, hwakes]
  constructor
  · rintro ⟨⟨⟨⟨⟨⟨⟨⟨⟨h1, h2⟩, h3⟩, h4⟩, h5⟩, h6⟩, h7⟩, h8⟩, h9⟩, h10⟩
    exact ⟨h1, h2, h3, h4, h5, h6, h7, h8, h9, h10⟩
  · rintro ⟨h1, h2, h3, h4, h5, h6, h7, h8, h9, h10⟩
    exact ⟨⟨⟨⟨⟨⟨⟨⟨⟨h1, h2⟩, h3⟩, h4⟩, h5⟩, h6⟩, h7⟩, h8⟩, h9⟩, h10⟩

theorem inRange_iff {lo hi n : Nat} : inRange lo hi n = true ↔ lo ≤ n ∧ n ≤ hi := by
  simp [inRange]

/-- A plan in range has its header and every step in range (R46, R47). -/
theorem PlanCfg.ok_iff (p : PlanId) (c : PlanCfg) :
    c.ok p = true ↔ c.headerOk = true ∧ ∀ n : Fin 16, c.steps[n].ok p = true := by
  rw [PlanCfg.ok, Bool.and_eq_true, all_toList_iff]

/-! ### Each entry read from its own bytes (R173, R174) -/

theorem vector_four {α : Type} (v : Vector α 4) : #v[v[0], v[1], v[2], v[3]] = v := by
  ext i hi
  interval_cases i <;> rfl

theorem vector_eight {α : Type} (v : Vector α 8) : #v[v[0], v[1], v[2], v[3], v[4], v[5], v[6], v[7]] = v := by
  ext i hi
  interval_cases i <;> rfl

section
variable (x : RailCfg)

theorem RailCfg.ofSense_senseBytes (h : x.ok = true) : x.ofSense x.senseBytes = some x := by
  simp only [RailCfg.ok, Bool.and_eq_true, inRange_iff, decide_eq_true_eq] at h
  simp (disch := omega) [RailCfg.senseBytes, RailCfg.ofSense, byte1, byte2, num2_byte2, toNat_ofNat_byte,
    -BitVec.toNat_ofNat]

theorem RailCfg.ofTiming_timingBytes (h : x.ok = true) : x.ofTiming x.timingBytes = some x := by
  simp only [RailCfg.ok, Bool.and_eq_true, inRange_iff, decide_eq_true_eq] at h
  simp (disch := omega) [RailCfg.timingBytes, RailCfg.ofTiming, byte1, byte2, num2_byte2, toNat_ofNat_byte,
    -BitVec.toNat_ofNat]

theorem RailCfg.ofPolicy_policyBytes : x.ofPolicy x.policyBytes = some x := by
  simp [RailCfg.policyBytes, RailCfg.ofPolicy]

end

theorem PlanCfg.ofHeader_headerBytes (x : PlanCfg) : x.ofHeader x.headerBytes = some x := by
  have hn := x.stepCount.isLt
  have ht := x.tailIndex.isLt
  simp (disch := omega) [PlanCfg.headerBytes, PlanCfg.ofHeader, byte1, toNat_ofNat_byte, -BitVec.toNat_ofNat]

theorem StepRec.ofBytes_bytes {p : PlanId} {x : StepRec} (h : x.ok p = true) : StepRec.ofBytes x.bytes = some x := by
  simp only [StepRec.ok, Bool.and_eq_true, inRange_iff] at h
  simp (disch := omega) [StepRec.bytes, StepRec.ofBytes, byte1, byte2, num2_byte2, toNat_ofNat_byte,
    -BitVec.toNat_ofNat]

theorem tierLineOf_bytes (m : TierLine) :
    tierLineOf (codeIn yesNo m.member) (codeIn levels m.shedLevel) = some m := by
  simp [tierLineOf]

theorem tierOfBytes_tierBytes (x : Vector TierLine 8) : tierOfBytes (tierBytes x) = some x := by
  rw [← vector_eight x]
  simp [tierBytes, tierOfBytes, tierLineOf_bytes]

theorem LineCfg.ofBytes_bytes (x : LineCfg) : LineCfg.ofBytes x.bytes = some x := by
  simp [LineCfg.bytes, LineCfg.ofBytes]

theorem WakeCfg.ofBytes_bytes {x : WakeCfg} (h : x.ok = true) : WakeCfg.ofBytes x.bytes = some x := by
  simp only [WakeCfg.ok, Bool.and_eq_true, inRange_iff, decide_eq_true_eq] at h
  have ⟨_, htarget⟩ := h
  simp (disch := omega) [WakeCfg.bytes, WakeCfg.ofBytes, named_wakeTargets htarget, byte2, num2_byte2,
    -BitVec.toNat_ofNat]

theorem BudgetCfg.ofBytes_bytes {x : BudgetCfg} (h : x.ok = true) : BudgetCfg.ofBytes x.bytes = some x := by
  simp only [BudgetCfg.ok, Bool.and_eq_true, inRange_iff] at h
  simp (disch := omega) [BudgetCfg.bytes, BudgetCfg.ofBytes, byte2, num2_byte2, -BitVec.toNat_ofNat]

theorem RideCfg.ofBytes_bytes {x : RideCfg} (h : x.ok = true) : RideCfg.ofBytes x.bytes = some x := by
  simp only [RideCfg.ok, Bool.and_eq_true, inRange_iff, decide_eq_true_eq] at h
  simp (disch := omega) [RideCfg.bytes, RideCfg.ofBytes, vector_four, byte1, byte2, num2_byte2, toNat_ofNat_byte,
    -BitVec.toNat_ofNat]

theorem LimitCfg.ofBytes_bytes {x : LimitCfg} (h : x.ok = true) : LimitCfg.ofBytes x.bytes = some x := by
  simp only [LimitCfg.ok, Bool.and_eq_true, inRange_iff, decide_eq_true_eq] at h
  simp (disch := omega) [LimitCfg.bytes, LimitCfg.ofBytes, byte1, byte2, num2_byte2, toNat_ofNat_byte,
    -BitVec.toNat_ofNat]

theorem ThermalCfg.ofBytes_bytes {x : ThermalCfg} (h : x.ok = true) : ThermalCfg.ofBytes x.bytes = some x := by
  simp only [ThermalCfg.ok, Bool.and_eq_true, inRange_iff, decide_eq_true_eq] at h
  simp (disch := omega) [ThermalCfg.bytes, ThermalCfg.ofBytes, byte1, byte2, num2_byte2, toNat_ofNat_byte,
    -BitVec.toNat_ofNat]

theorem LockCfg.ofBytes_bytes {x : LockCfg} (h : x.ok = true) : LockCfg.ofBytes x.bytes = some x := by
  simp only [LockCfg.ok, Bool.and_eq_true, inRange_iff] at h
  simp (disch := omega) [LockCfg.bytes, LockCfg.ofBytes, byte1, byte2, num2_byte2, toNat_ofNat_byte,
    -BitVec.toNat_ofNat]

theorem SystemCfg.ofBytes_bytes {x : SystemCfg} (h : x.ok = true) : SystemCfg.ofBytes x.bytes = some x := by
  simp only [SystemCfg.ok, Bool.and_eq_true, inRange_iff, decide_eq_true_eq] at h
  have ⟨⟨_, htarget⟩, _⟩ := h
  simp (disch := omega) [SystemCfg.bytes, SystemCfg.ofBytes, named_autoOnTargets htarget, byte2, num2_byte2,
    -BitVec.toNat_ofNat]

end Sys2Proof.Machine

namespace Sys2Proof.Machine

/-! ### An entry written back as it reads (R173, R174) -/

theorem checked_some {α : Type} {ok : α → Bool} {a : α} (h : ok a = true) : checked ok (some a) = some a :=
  if_pos h

section
variable (t : Tables)

theorem Tables.setRail_self (r : Rail) : t.setRail r t.rails[r] = t := by simp [Tables.setRail]
theorem Tables.setPlan_self (p : PlanId) : t.setPlan p (t.plan p) = t := by simp [Tables.setPlan, Tables.plan]
theorem Tables.setTier_self (k : Fin 4) : t.setTier k t.tiers[k] = t := by simp [Tables.setTier]
theorem Tables.setLine_self (l : LineId) : t.setLine l (t.line l) = t := by simp [Tables.setLine, Tables.line]
theorem Tables.setWake_self (w : WakeLine) : t.setWake w (t.wake w) = t := by simp [Tables.setWake, Tables.wake]

end

/-- A group that reads its own bytes as its own value `x`, in range, and writes the tables as they are. -/
theorem edited_same {α : Type} {ok : α → Bool} {read : Option α} {x : α} {write : α → Tables} {t : Tables}
    (hread : read = some x) (hok : ok x = true) (hwrite : write x = t) : (checked ok read).map write = some t := by
  rw [hread, checked_some hok, Option.map_some, hwrite]

/-- Settles O37: each group's bytes are read as the value they were made from, which is in range. -/
theorem fieldsRoundTrip : Obligations.FieldsRoundTrip := by
  intro t g hok hg
  have h := t.ok_iff.1 hok
  cases g with
  | sense r => exact edited_same (RailCfg.ofSense_senseBytes _ (h.rails r)) (h.rails r) (t.setRail_self r)
  | timing r => exact edited_same (RailCfg.ofTiming_timingBytes _ (h.rails r)) (h.rails r) (t.setRail_self r)
  | policy r => exact edited_same (RailCfg.ofPolicy_policyBytes _) (h.rails r) (t.setRail_self r)
  | header p =>
    obtain ⟨hheader, -⟩ := (PlanCfg.ok_iff p _).1 (h.plans p)
    exact edited_same (PlanCfg.ofHeader_headerBytes _) hheader (t.setPlan_self p)
  | step p n =>
    obtain ⟨-, hstep⟩ := (PlanCfg.ok_iff p _).1 (h.plans p)
    refine edited_same (StepRec.ofBytes_bytes (hstep n)) (hstep n) ?_
    have hsame : (t.plan p).steps.set n (t.plan p).steps[n] = (t.plan p).steps := by simp
    rw [hsame]
    exact t.setPlan_self p
  | tier k => exact edited_same (tierOfBytes_tierBytes _) (h.tiers k) (t.setTier_self k)
  | line l =>
    have hl : l ≠ .faultN := fun hl => hg (congrArg Group.line hl)
    refine (if_neg hl).trans ?_
    rw [Tables.fields, LineCfg.ofBytes_bytes, Option.map_some, t.setLine_self]
  | wake w => exact edited_same (WakeCfg.ofBytes_bytes (h.wakes w)) (h.wakes w) (t.setWake_self w)
  | budget => exact edited_same (BudgetCfg.ofBytes_bytes h.budget) h.budget rfl
  | ride => exact edited_same (RideCfg.ofBytes_bytes h.ride) h.ride rfl
  | limit => exact edited_same (LimitCfg.ofBytes_bytes h.limit) h.limit rfl
  | thermal => exact edited_same (ThermalCfg.ofBytes_bytes h.thermal) h.thermal rfl
  | lock => exact edited_same (LockCfg.ofBytes_bytes h.lock) h.lock rfl
  | system => exact edited_same (SystemCfg.ofBytes_bytes h.system) h.system rfl

end Sys2Proof.Machine

namespace Sys2Proof.Machine

/-! ### What a read entry reads back as (R174) -/

theorem checked_eq_some_iff {α : Type} {ok : α → Bool} {x : Option α} {a : α} :
    checked ok x = some a ↔ x = some a ∧ ok a = true := by
  constructor
  · intro h
    obtain rfl := checked_eq_some h
    refine ⟨rfl, ?_⟩
    by_contra hok
    exact absurd (h.symm.trans (if_neg hok)) nofun
  · rintro ⟨rfl, hok⟩
    exact checked_some hok

/-- An edit of a checked group: the value read, in range, is what it writes. -/
theorem edited_read {α : Type} {ok : α → Bool} {read : Option α} {write : α → Tables} {u : Tables}
    (h : (checked ok read).map write = some u) : ∃ x, read = some x ∧ ok x = true ∧ write x = u := by
  obtain ⟨x, hx, hu⟩ := Option.map_eq_some_iff.1 h
  obtain ⟨hread, hok⟩ := checked_eq_some_iff.1 hx
  exact ⟨x, hread, hok, hu⟩

section
variable {x y : RailCfg} {body : List Byte}

/-- RAIL SENSE as read: its own bytes, the record's other groups as they were. -/
theorem RailCfg.ofSense_reads (h : x.ofSense body = some y) :
    y.senseBytes = body ∧ y.timingBytes = x.timingBytes ∧ y.policyBytes = x.policyBytes := by
  unfold RailCfg.ofSense at h
  split at h
  · simp only [Option.bind_eq_bind, Option.bind_eq_some_iff, Option.pure_def, Option.some.injEq] at h
    obtain ⟨used, hu, monitor, hm, rfl⟩ := h
    refine ⟨?_, rfl, rfl⟩
    simp [RailCfg.senseBytes, codeIn_of_named (by decide) hu, codeIn_of_named (by decide) hm]
  · nomatch h

theorem RailCfg.ofTiming_reads (h : x.ofTiming body = some y) :
    y.timingBytes = body ∧ y.senseBytes = x.senseBytes ∧ y.policyBytes = x.policyBytes := by
  unfold RailCfg.ofTiming at h
  split at h
  · simp only [Option.bind_eq_bind, Option.bind_eq_some_iff, Option.pure_def, Option.some.injEq] at h
    obtain ⟨bleed, hb, limit, hl, rfl⟩ := h
    refine ⟨?_, rfl, rfl⟩
    simp [RailCfg.timingBytes, codeIn_of_named (by decide) hb, codeIn_of_named (by decide) hl]
  · nomatch h

theorem RailCfg.ofPolicy_reads (h : x.ofPolicy body = some y) :
    y.policyBytes = body ∧ y.senseBytes = x.senseBytes ∧ y.timingBytes = x.timingBytes := by
  unfold RailCfg.ofPolicy at h
  split at h
  · simp only [Option.bind_eq_bind, Option.bind_eq_some_iff, Option.pure_def, Option.some.injEq] at h
    obtain ⟨mode, hm, action, ha, home, hh, tier, ht, rfl⟩ := h
    refine ⟨?_, rfl, rfl⟩
    simp [RailCfg.policyBytes, codeIn_of_named (by decide) hm, codeIn_of_named (by decide) ha,
      codeIn_of_named (by decide) hh, codeIn_of_named (by decide) ht]
  · nomatch h

end

theorem PlanCfg.ofHeader_reads {x y : PlanCfg} {body : List Byte} (h : x.ofHeader body = some y) :
    y.headerBytes = body ∧ y.steps = x.steps := by
  unfold PlanCfg.ofHeader at h
  split at h
  · split at h
    · split at h
      · cases h
        exact ⟨by simp [PlanCfg.headerBytes], rfl⟩
      · nomatch h
    · nomatch h
  · nomatch h

section
variable {body : List Byte}

theorem StepRec.ofBytes_reads {x : StepRec} (h : StepRec.ofBytes body = some x) : x.bytes = body := by
  unfold StepRec.ofBytes at h
  split at h
  · simp only [Option.bind_eq_bind, Option.bind_eq_some_iff, Option.pure_def, Option.some.injEq] at h
    obtain ⟨kind, hk, miss, hm, rfl⟩ := h
    simp [StepRec.bytes, codeIn_of_named (by decide) hk, codeIn_of_named (by decide) hm]
  · nomatch h

theorem tierLineOf_reads {m l : Byte} {x : TierLine} (h : tierLineOf m l = some x) :
    codeIn yesNo x.member = m ∧ codeIn levels x.shedLevel = l := by
  simp only [tierLineOf, Option.bind_eq_bind, Option.bind_eq_some_iff, Option.pure_def, Option.some.injEq] at h
  obtain ⟨member, hm, level, hl, rfl⟩ := h
  exact ⟨codeIn_of_named (by decide) hm, codeIn_of_named (by decide) hl⟩

theorem tierOfBytes_reads {x : Vector TierLine 8} (h : tierOfBytes body = some x) : tierBytes x = body := by
  unfold tierOfBytes at h
  split at h
  · simp only [Option.bind_eq_bind, Option.bind_eq_some_iff, Option.pure_def, Option.some.injEq] at h
    obtain ⟨a0, h0, a1, h1, a2, h2, a3, h3, a4, h4, a5, h5, a6, h6, a7, h7, rfl⟩ := h
    simp [tierBytes, tierLineOf_reads h0, tierLineOf_reads h1, tierLineOf_reads h2, tierLineOf_reads h3,
      tierLineOf_reads h4, tierLineOf_reads h5, tierLineOf_reads h6, tierLineOf_reads h7]
  · nomatch h

theorem LineCfg.ofBytes_reads {x : LineCfg} (h : LineCfg.ofBytes body = some x) : x.bytes = body := by
  unfold LineCfg.ofBytes at h
  split at h
  · simp only [Option.bind_eq_bind, Option.bind_eq_some_iff, Option.pure_def, Option.some.injEq] at h
    obtain ⟨safe, hs, member, hm, dark, hd, rfl⟩ := h
    simp [LineCfg.bytes, codeIn_of_named (by decide) hs, codeIn_of_named (by decide) hm,
      codeIn_of_named (by decide) hd]
  · nomatch h

theorem WakeCfg.ofBytes_reads {x : WakeCfg} (h : WakeCfg.ofBytes body = some x) : x.bytes = body := by
  unfold WakeCfg.ofBytes at h
  split at h
  · simp only [Option.bind_eq_bind, Option.bind_eq_some_iff, Option.pure_def, Option.some.injEq] at h
    obtain ⟨target, ht, rfl⟩ := h
    simp [WakeCfg.bytes, codeIn_of_named (by decide) ht]
  · nomatch h

theorem BudgetCfg.ofBytes_reads {x : BudgetCfg} (h : BudgetCfg.ofBytes body = some x) : x.bytes = body := by
  unfold BudgetCfg.ofBytes at h
  split at h
  · cases h
    simp [BudgetCfg.bytes]
  · nomatch h

theorem RideCfg.ofBytes_reads {x : RideCfg} (h : RideCfg.ofBytes body = some x) : x.bytes = body := by
  unfold RideCfg.ofBytes at h
  split at h
  · simp only [Option.bind_eq_bind, Option.bind_eq_some_iff, Option.pure_def, Option.some.injEq] at h
    obtain ⟨auto, ha, rfl⟩ := h
    simp [RideCfg.bytes, codeIn_of_named (by decide) ha]
  · nomatch h

theorem LimitCfg.ofBytes_reads {x : LimitCfg} (h : LimitCfg.ofBytes body = some x) : x.bytes = body := by
  unfold LimitCfg.ofBytes at h
  split at h
  · simp only [Option.bind_eq_bind, Option.bind_eq_some_iff, Option.pure_def, Option.some.injEq] at h
    obtain ⟨tier, ht, mode, hm, rfl⟩ := h
    simp [LimitCfg.bytes, tierByte_of_tierOfByte ht, codeIn_of_named (by decide) hm]
  · nomatch h

theorem ThermalCfg.ofBytes_reads {x : ThermalCfg} (h : ThermalCfg.ofBytes body = some x) : x.bytes = body := by
  unfold ThermalCfg.ofBytes at h
  split at h
  · simp only [Option.bind_eq_bind, Option.bind_eq_some_iff, Option.pure_def, Option.some.injEq] at h
    obtain ⟨tier, ht, rfl⟩ := h
    simp [ThermalCfg.bytes, tierByte_of_tierOfByte ht]
  · nomatch h

theorem LockCfg.ofBytes_reads {x : LockCfg} (h : LockCfg.ofBytes body = some x) : x.bytes = body := by
  unfold LockCfg.ofBytes at h
  split at h
  · cases h
    simp [LockCfg.bytes]
  · nomatch h

theorem SystemCfg.ofBytes_reads {x : SystemCfg} (h : SystemCfg.ofBytes body = some x) : x.bytes = body := by
  unfold SystemCfg.ofBytes at h
  split at h
  · simp only [Option.bind_eq_bind, Option.bind_eq_some_iff, Option.pure_def, Option.some.injEq] at h
    obtain ⟨auto, ha, rfl⟩ := h
    simp [SystemCfg.bytes, codeIn_of_named (by decide) ha]
  · nomatch h

end

end Sys2Proof.Machine

namespace Sys2Proof.Machine

/-! ### The entries that an edit leaves (R174) -/

theorem PlanId.idx_injective : Function.Injective PlanId.idx :=
  Function.LeftInverse.injective (g := allPlans.get) fun p => by cases p <;> rfl

theorem LineId.idx_injective : Function.Injective LineId.idx :=
  Function.LeftInverse.injective (g := lineList.get) fun l => by cases l <;> rfl

theorem wakeIdx_injective : Function.Injective wakeIdx :=
  Function.LeftInverse.injective (g := wakeList.get) fun w => by cases w <;> rfl

/-- A vector with the entry of one name replaced, read at another name. -/
theorem getElem_set_named {α ι : Type} [DecidableEq ι] {n : Nat} {idx : ι → Fin n} (hidx : Function.Injective idx)
    (v : Vector α n) (i j : ι) (x : α) : (v.set (idx i) x)[idx j] = if j = i then x else v[idx j] := by
  by_cases h : j = i
  · subst h
    simp
  · have hne : (idx i).val ≠ (idx j).val := fun hv => h (hidx (Fin.ext hv.symm))
    simp [h, hne]

section
variable (t : Tables)

theorem Tables.setRail_get (r r' : Rail) (x : RailCfg) :
    (t.setRail r x).rails[r'] = if r' = r then x else t.rails[r'] :=
  getElem_set_named Function.injective_id t.rails r r' x

theorem Tables.setPlan_get (p q : PlanId) (x : PlanCfg) :
    (t.setPlan p x).plan q = if q = p then x else t.plan q :=
  getElem_set_named PlanId.idx_injective t.plans p q x

theorem Tables.setTier_get (k k' : Fin 4) (x : Vector TierLine 8) :
    (t.setTier k x).tiers[k'] = if k' = k then x else t.tiers[k'] :=
  getElem_set_named Function.injective_id t.tiers k k' x

theorem Tables.setLine_get (l l' : LineId) (x : LineCfg) :
    (t.setLine l x).line l' = if l' = l then x else t.line l' :=
  getElem_set_named LineId.idx_injective t.lines l l' x

theorem Tables.setWake_get (w w' : WakeLine) (x : WakeCfg) :
    (t.setWake w x).wake w' = if w' = w then x else t.wake w' :=
  getElem_set_named wakeIdx_injective t.wakes w w' x

variable {t} {g : Group}

/-- With a rail's record replaced, every group stands whose bytes the new record has as the old one. -/
theorem Tables.setRail_fields {r : Rail} {x : RailCfg} (hsense : g = .sense r → x.senseBytes = t.rails[r].senseBytes)
    (htiming : g = .timing r → x.timingBytes = t.rails[r].timingBytes)
    (hpolicy : g = .policy r → x.policyBytes = t.rails[r].policyBytes) : (t.setRail r x).fields g = t.fields g := by
  cases g with
  | sense r' | timing r' | policy r' =>
    simp only [Tables.fields, Tables.setRail_get]
    split
    · simp_all
    · rfl
  | header | step | tier | line | wake | budget | ride | limit | thermal | lock | system => rfl

/-- With a plan replaced, every group stands whose bytes the new plan has as the old one. -/
theorem Tables.setPlan_fields {p : PlanId} {x : PlanCfg}
    (hheader : g = .header p → x.headerBytes = (t.plan p).headerBytes)
    (hstep : ∀ n, g = .step p n → x.steps[n] = (t.plan p).steps[n]) : (t.setPlan p x).fields g = t.fields g := by
  cases g with
  | header q | step q n =>
    simp only [Tables.fields, Tables.setPlan_get]
    split
    · simp_all
    · rfl
  | sense | timing | policy | tier | line | wake | budget | ride | limit | thermal | lock | system => rfl

theorem Tables.setTier_fields {k : Fin 4} (x : Vector TierLine 8) (h : g ≠ .tier k) :
    (t.setTier k x).fields g = t.fields g := by
  cases g with
  | tier k' =>
    simp only [Tables.fields, Tables.setTier_get]
    rw [if_neg fun hk => h (congrArg _ hk)]
  | sense | timing | policy | header | step | line | wake | budget | ride | limit | thermal | lock | system => rfl

theorem Tables.setLine_fields {l : LineId} (x : LineCfg) (h : g ≠ .line l) :
    (t.setLine l x).fields g = t.fields g := by
  cases g with
  | line l' =>
    simp only [Tables.fields, Tables.setLine_get]
    rw [if_neg fun hl => h (congrArg _ hl)]
  | sense | timing | policy | header | step | tier | wake | budget | ride | limit | thermal | lock | system => rfl

theorem Tables.setWake_fields {w : WakeLine} (x : WakeCfg) (h : g ≠ .wake w) :
    (t.setWake w x).fields g = t.fields g := by
  cases g with
  | wake w' =>
    simp only [Tables.fields, Tables.setWake_get]
    rw [if_neg fun hw => h (congrArg _ hw)]
  | sense | timing | policy | header | step | tier | line | budget | ride | limit | thermal | lock | system => rfl

/-! ### Tables in range with an entry replaced (R174) -/

theorem Tables.Ranges.setRail (h : t.Ranges) {r : Rail} {x : RailCfg} (hx : x.ok = true) : (t.setRail r x).Ranges where
  __ := h
  rails r' := by
    rw [Tables.setRail_get]
    split
    · exact hx
    · exact h.rails r'

theorem Tables.Ranges.setPlan (h : t.Ranges) {p : PlanId} {x : PlanCfg} (hx : x.ok p = true) :
    (t.setPlan p x).Ranges where
  __ := h
  plans q := by
    rw [Tables.setPlan_get]
    split
    · rename_i hq
      rwa [hq]
    · exact h.plans q

theorem Tables.Ranges.setTier (h : t.Ranges) {k : Fin 4} {x : Vector TierLine 8} (hx : tierOk x = true) :
    (t.setTier k x).Ranges where
  __ := h
  tiers k' := by
    rw [Tables.setTier_get]
    split
    · exact hx
    · exact h.tiers k'

theorem Tables.Ranges.setWake (h : t.Ranges) {w : WakeLine} {x : WakeCfg} (hx : x.ok = true) :
    (t.setWake w x).Ranges where
  __ := h
  wakes w' := by
    rw [Tables.setWake_get]
    split
    · exact hx
    · exact h.wakes w'

end

/-! ### What an accepted edit does to the tables (R174) -/

/-- The edit that made `u` of `t` wrote group `g` with the bytes `body`, left every other group, and kept the ranges. -/
structure Tables.Wrote (t u : Tables) (g : Group) (body : List Byte) : Prop where
  written : u.fields g = body
  others : ∀ g' : Group, g' ≠ g → u.fields g' = t.fields g'
  inRange : t.Ranges → u.Ranges

section
variable {t u : Tables} {body : List Byte}

theorem Tables.wrote_sense {r : Rail} (h : t.edited (.sense r) body = some u) : t.Wrote u (.sense r) body := by
  obtain ⟨x, hx, hok, rfl⟩ := edited_read h
  obtain ⟨hsense, htiming, hpolicy⟩ := RailCfg.ofSense_reads hx
  refine ⟨?_, fun g' hg => ?_, fun h => h.setRail hok⟩
  · rw [Tables.fields, Tables.setRail_get, if_pos rfl, hsense]
  · exact Tables.setRail_fields (absurd · hg) (fun _ => htiming) fun _ => hpolicy

theorem Tables.wrote_timing {r : Rail} (h : t.edited (.timing r) body = some u) : t.Wrote u (.timing r) body := by
  obtain ⟨x, hx, hok, rfl⟩ := edited_read h
  obtain ⟨htiming, hsense, hpolicy⟩ := RailCfg.ofTiming_reads hx
  refine ⟨?_, fun g' hg => ?_, fun h => h.setRail hok⟩
  · rw [Tables.fields, Tables.setRail_get, if_pos rfl, htiming]
  · exact Tables.setRail_fields (fun _ => hsense) (absurd · hg) fun _ => hpolicy

theorem Tables.wrote_policy {r : Rail} (h : t.edited (.policy r) body = some u) : t.Wrote u (.policy r) body := by
  obtain ⟨x, hx, hok, rfl⟩ := edited_read h
  obtain ⟨hpolicy, hsense, htiming⟩ := RailCfg.ofPolicy_reads hx
  refine ⟨?_, fun g' hg => ?_, fun h => h.setRail hok⟩
  · rw [Tables.fields, Tables.setRail_get, if_pos rfl, hpolicy]
  · exact Tables.setRail_fields (fun _ => hsense) (fun _ => htiming) (absurd · hg)

theorem Tables.wrote_header {p : PlanId} (h : t.edited (.header p) body = some u) : t.Wrote u (.header p) body := by
  obtain ⟨x, hx, hok, rfl⟩ := edited_read h
  obtain ⟨hheader, hsteps⟩ := PlanCfg.ofHeader_reads hx
  refine ⟨?_, fun g' hg => ?_, fun h => h.setPlan ?_⟩
  · rw [Tables.fields, Tables.setPlan_get, if_pos rfl, hheader]
  · exact Tables.setPlan_fields (absurd · hg) fun n _ => by rw [hsteps]
  · obtain ⟨-, hplan⟩ := (PlanCfg.ok_iff p _).1 (h.plans p)
    exact (PlanCfg.ok_iff p x).2 ⟨hok, fun n => by rw [hsteps]; exact hplan n⟩

theorem Tables.wrote_step {p : PlanId} {n : Fin 16} (h : t.edited (.step p n) body = some u) :
    t.Wrote u (.step p n) body := by
  obtain ⟨x, hx, hok, rfl⟩ := edited_read h
  have hget (m : Fin 16) : ((t.plan p).steps.set n x)[m] = if m = n then x else (t.plan p).steps[m] :=
    getElem_set_named Function.injective_id _ n m x
  refine ⟨?_, fun g' hg => ?_, fun h => h.setPlan ?_⟩
  · rw [Tables.fields, Tables.setPlan_get, if_pos rfl, hget, if_pos rfl, StepRec.ofBytes_reads hx]
  · refine Tables.setPlan_fields (fun _ => rfl) fun m hm => ?_
    rw [hget, if_neg fun hmn => hg (hm.trans (by rw [hmn]))]
  · obtain ⟨hheader, hplan⟩ := (PlanCfg.ok_iff p _).1 (h.plans p)
    refine (PlanCfg.ok_iff p _).2 ⟨hheader, fun m => ?_⟩
    rw [hget]
    split
    · exact hok
    · exact hplan m

/-- An edit is what `Tables.Wrote` says, for every group (R174). -/
theorem Tables.edited_wrote {g : Group} (h : t.edited g body = some u) : t.Wrote u g body := by
  cases g with
  | sense r => exact Tables.wrote_sense h
  | timing r => exact Tables.wrote_timing h
  | policy r => exact Tables.wrote_policy h
  | header p => exact Tables.wrote_header h
  | step p n => exact Tables.wrote_step h
  | tier k =>
    obtain ⟨x, hx, hok, rfl⟩ := edited_read h
    refine ⟨?_, fun g' hg => Tables.setTier_fields x hg, fun h => h.setTier hok⟩
    rw [Tables.fields, Tables.setTier_get, if_pos rfl, tierOfBytes_reads hx]
  | line l =>
    simp only [Tables.edited] at h
    split at h
    · nomatch h
    · obtain ⟨x, hx, rfl⟩ := Option.map_eq_some_iff.1 h
      refine ⟨?_, fun g' hg => Tables.setLine_fields x hg, fun h => { h with }⟩
      rw [Tables.fields, Tables.setLine_get, if_pos rfl, LineCfg.ofBytes_reads hx]
  | wake w =>
    obtain ⟨x, hx, hok, rfl⟩ := edited_read h
    refine ⟨?_, fun g' hg => Tables.setWake_fields x hg, fun h => h.setWake hok⟩
    rw [Tables.fields, Tables.setWake_get, if_pos rfl, WakeCfg.ofBytes_reads hx]
  | budget =>
    obtain ⟨x, hx, hok, rfl⟩ := edited_read h
    exact ⟨BudgetCfg.ofBytes_reads hx, fun g' hg => by cases g' <;> trivial, fun h => { h with budget := hok }⟩
  | ride =>
    obtain ⟨x, hx, hok, rfl⟩ := edited_read h
    exact ⟨RideCfg.ofBytes_reads hx, fun g' hg => by cases g' <;> trivial, fun h => { h with ride := hok }⟩
  | limit =>
    obtain ⟨x, hx, hok, rfl⟩ := edited_read h
    exact ⟨LimitCfg.ofBytes_reads hx, fun g' hg => by cases g' <;> trivial, fun h => { h with limit := hok }⟩
  | thermal =>
    obtain ⟨x, hx, hok, rfl⟩ := edited_read h
    exact ⟨ThermalCfg.ofBytes_reads hx, fun g' hg => by cases g' <;> trivial, fun h => { h with thermal := hok }⟩
  | lock =>
    obtain ⟨x, hx, hok, rfl⟩ := edited_read h
    exact ⟨LockCfg.ofBytes_reads hx, fun g' hg => by cases g' <;> trivial, fun h => { h with lock := hok }⟩
  | system =>
    obtain ⟨x, hx, hok, rfl⟩ := edited_read h
    exact ⟨SystemCfg.ofBytes_reads hx, fun g' hg => by cases g' <;> trivial, fun h => { h with system := hok }⟩

end

/-- Settles O38: what each group's edit wrote, by `Tables.edited_wrote`. -/
theorem editWritesOneGroup : Obligations.EditWritesOneGroup := by
  intro t u g body h
  obtain ⟨hwritten, hothers, hrange⟩ := Tables.edited_wrote h
  exact ⟨hwritten, hothers, fun hok => u.ok_iff.2 (hrange (t.ok_iff.1 hok))⟩

end Sys2Proof.Machine

namespace Sys2Proof.Machine

/-! ### EDIT_CONFIG's checks in their order (R174) -/

/-- The address bytes and the field bytes behind them are read as the entry and its fields (R173). -/
theorem editArgs_addressBytes (g : Group) (l : List Byte) : editArgs (g.addressBytes ++ l) = some (g, l) := by
  obtain ⟨t, i, x, hbytes⟩ : ∃ t i x : Byte, g.addressBytes = [t, i, x] := by cases g <;> exact ⟨_, _, _, rfl⟩
  have haddress : address t i x = some g := by
    have h := readAddress_addressBytes g
    rwa [hbytes] at h
  rw [hbytes]
  show (address t i x).map (fun a => (a, l)) = _
  rw [haddress]
  rfl

/-- An EDIT_CONFIG whose check refuses it, whatever tables the check names, is refused. -/
theorem exec_editConfig_refused {s : State} {g : Group} {l : List Byte} (tag : Byte) (hready : s.ready)
    (hsys : s.sys ≠ .starting) {st : Status} {t : Tables} (hcheck : s.editCheck g l = (st, t)) (hst : st ≠ .ok) :
    exec (.editConfig tag (g.addressBytes ++ l)) s
      = .next (s.replied ⟨0x10, tag, g.addressBytes ++ l⟩ st []) := by
  have hserved : (Ev.start s).serveEditConfig (g.addressBytes ++ l) = (Ev.start s).refuse st := by
    unfold Ev.serveEditConfig
    rw [editArgs_addressBytes]
    dsimp only
    rw [show (Ev.start s).editCheck g l = (st, t) from hcheck]
    cases st with
    | ok => exact absurd rfl hst
    | gated | busy | wrongState | badArgument | unknownKind | locked | notReady | tooLate | stillActive | powerFail =>
      rfl
  exact request_refused (f := ⟨0x10, tag, g.addressBytes ++ l⟩) hready ((Ev.served_started _ _ hsys).trans hserved)

section
variable {s : State} {g : Group} {l : List Byte} {u : Tables}

/-- No such edit: a wrong length, a field out of range, a broken rule. -/
theorem State.editCheck_badArgument (h : s.tables.edited g l = none) : s.editCheck g l = (.badArgument, s.tables) := by
  simp only [State.editCheck, h]

variable (h : s.tables.edited g l = some u)
include h

theorem State.editCheck_locked (hride : s.ride.state ≠ .normal) : s.editCheck g l = (.locked, s.tables) := by
  simp only [State.editCheck, h]
  rw [if_pos hride]

variable (hride : s.ride.state = .normal)
include hride

theorem State.editCheck_busy (hbusy : s.store.writing = true ∨ s.planBusy g = true) :
    s.editCheck g l = (.busy, s.tables) := by
  simp only [State.editCheck, h]
  rw [if_neg (not_not.2 hride), if_pos (by simpa using hbusy)]

variable (hwriting : s.store.writing = false) (hplan : s.planBusy g = false)
include hwriting hplan

theorem State.editCheck_wrongState (hhard : s.hardRefused g u = true) :
    s.editCheck g l = (.wrongState, s.tables) := by
  simp only [State.editCheck, h]
  rw [if_neg (not_not.2 hride), if_neg (by simp [hwriting, hplan]), if_pos hhard]

theorem State.editCheck_accepted (hhard : s.hardRefused g u = false) : s.editCheck g l = (.ok, u) := by
  simp only [State.editCheck, h]
  rw [if_neg (not_not.2 hride), if_neg (by simp [hwriting, hplan]), if_neg (Bool.eq_false_iff.1 hhard)]

end

/-- A plan's header and steps are busy while the plan is not IDLE (R174). -/
theorem State.planBusy_of {s : State} {g : Group} {p : PlanId} (hg : g = .header p ∨ ∃ n, g = .step p n)
    (hp : s.planStatus p ≠ .idle) : s.planBusy g = true := by
  obtain rfl | ⟨n, rfl⟩ := hg <;> exact decide_eq_true hp

/-- A hard field of a rail that is not OFF is not to be changed (R43, R174). -/
theorem State.hardRefused_of {s : State} {g : Group} {u : Tables} {r : Rail} (hg : g = .sense r ∨ g = .timing r)
    (hstate : s.rails[r].state ≠ .off)
    (hhard : s.tables.rails[r].used ≠ u.rails[r].used ∨ s.tables.rails[r].monitor ≠ u.rails[r].monitor
      ∨ s.tables.rails[r].fullscaleMV ≠ u.rails[r].fullscaleMV ∨ s.tables.rails[r].bleed ≠ u.rails[r].bleed) :
    s.hardRefused g u = true := by
  have hchange : s.tables.rails[r].hardChange u.rails[r] = true := by
    simpa only [RailCfg.hardChange, Bool.or_eq_true, decide_eq_true_eq, or_assoc] using hhard
  have hrefused : (s.tables.rails[r].hardChange u.rails[r] && decide (s.rails[r].state ≠ .off)) = true := by
    rw [hchange, decide_eq_true hstate]
    rfl
  obtain rfl | rfl := hg <;> exact hrefused

/-- Settles O39: each check's status, behind the checks that it passes. -/
theorem editIsRefusedInOrder : Obligations.EditIsRefusedInOrder := by
  intro s tag g l hready hsys body
  have hrefused {st : Status} (hcheck : s.editCheck g l = (st, s.tables)) (hst : st ≠ .ok) :=
    exec_editConfig_refused tag hready hsys hcheck hst
  refine ⟨fun h => hrefused (State.editCheck_badArgument h) nofun, fun u h => ⟨fun hride => ?_, ?_, ?_⟩⟩
  · exact hrefused (State.editCheck_locked h hride) nofun
  · intro hride hbusy
    refine hrefused (State.editCheck_busy h hride (hbusy.imp_right ?_)) nofun
    rintro ⟨p, hg, hp⟩
    exact State.planBusy_of hg hp
  · intro r hride hwriting hg hstate hhard
    have hplan : s.planBusy g = false := by obtain rfl | rfl := hg <;> rfl
    exact hrefused (State.editCheck_wrongState h hride hwriting hplan (State.hardRefused_of hg hstate hhard)) nofun

end Sys2Proof.Machine

namespace Sys2Proof.Machine

/-! ### STORE and its completions (R175) -/

section
variable {s : State} (tag : Byte) (hready : s.ready) (hsys : s.sys ≠ .starting)
include hready hsys

/-- A STORE that its check refuses is refused. -/
theorem exec_store_refused {st : Status} (hcheck : s.storeCheck [] = st) (hst : st ≠ .ok) :
    exec (.store tag []) s = .next (s.replied ⟨0x11, tag, []⟩ st []) := by
  subst hcheck
  have hserved : (Ev.start s).serveStore [] = (Ev.start s).refuse (s.storeCheck []) := if_neg hst
  exact request_refused (f := ⟨0x11, tag, []⟩) hready ((Ev.served_started _ _ hsys).trans hserved)

theorem exec_store_locked (h : s.ride.state ≠ .normal ∨ s.pins.acOk = false) :
    exec (.store tag []) s = .next (s.replied ⟨0x11, tag, []⟩ .locked []) :=
  exec_store_refused tag hready hsys ((if_neg fun hbody => hbody rfl).trans (if_pos h)) nofun

theorem exec_store_busy (hride : s.ride.state = .normal) (hac : s.pins.acOk = true) (hw : s.store.writing = true) :
    exec (.store tag []) s = .next (s.replied ⟨0x11, tag, []⟩ .busy []) :=
  exec_store_refused tag hready hsys (by simp [State.storeCheck, hride, hac, hw]) nofun

end

section
variable (s : State)

/-- The state after a completion of the write, verified or not, with STORE_DONE behind the notices (R175). -/
def State.storeEnded (ok : Bool) : State :=
  { s with
    store.writing := false
    store.lastResult := if ok then .ok else .failed
    store.image.valid := ok
    notices := enqueue s.notices .storeDone (.storeDone ok) }

/-- The state after a verified write, whose image's revision is reported (R166, R175). -/
def State.storeDone : State :=
  { s with store.revision := s.store.image.tables.system.revision }.storeEnded true

/-- A verified write outside UNCONFIGURED (R175). -/
theorem exec_storeVerified_configured (hw : s.store.writing = true) (hsys : s.sys ≠ .unconfigured) :
    exec .storeVerified s = .next s.storeDone := by
  have hends : (Ev.start s).storeVerified = Ev.start s.storeDone := if_neg hsys
  simp only [exec, execStoreVerified, runEvent, Ev.start_store, hw, if_true, hends, Ev.finish_start]

/-- A verified write in UNCONFIGURED: start-up goes on (R17). -/
theorem exec_storeVerified_unconfigured (hw : s.store.writing = true) (hsys : s.sys = .unconfigured) :
    exec .storeVerified s = .next (Ev.start s.storeDone).goLive.settle.finish := by
  have hends : (Ev.start s).storeVerified = (Ev.start s.storeDone).goLive.settle := if_pos hsys
  simp only [exec, execStoreVerified, runEvent, Ev.start_store, hw, if_true, hends]

theorem exec_storeNotVerified_writing (hw : s.store.writing = true) :
    exec .storeNotVerified s = .next (s.storeEnded false) := by
  simp only [exec, execStoreNotVerified, runEvent, Ev.start_store, hw, if_true]
  rfl

/-- With no write in progress a completion has no effect (log 3). -/
theorem exec_storeCompletion_idle (hw : s.store.writing = false) :
    exec .storeVerified s = .next s ∧ exec .storeNotVerified s = .next s := by
  constructor <;>
    simp only [exec, execStoreVerified, execStoreNotVerified, runEvent, Ev.start_store, hw, Bool.false_eq_true,
      if_false, Ev.finish_start]

/-- The move to STANDBY leaves the tables and the store and computes the reserve (R17, R107). -/
theorem Ev.goLive_settled :
    let t := (Ev.start s).goLive.settle.finish
    t.tables = s.tables ∧ t.store = s.store ∧ t.reserveMatches ∧ t.bud.record = s.bud.record := by
  have h := ((Ev.start s).goLive_frame (p := fun _ => True)).trans (Ev.settle_frame _)
  refine ⟨?_, ?_, ?_, ?_⟩
  · rw [Ev.finish_tables, h.tables]
    rfl
  · rw [Ev.finish_store, h.store]
    rfl
  · have hm := h.reserveMatches (Ev.start s).recomputeReserve_matches
    unfold State.reserveMatches at hm ⊢
    rwa [Ev.finish_bud, Ev.finish_tables]
  · rw [Ev.finish_bud, h.bud]
    rfl

/-- The end of start-up does not ask from which state it is reached. -/
theorem Ev.goLive_of_starting (e : Ev) (h : e.sys ≠ .standby) :
    e.goLive = ({ e with sys := .starting } : Ev).goLive := by
  have hsys : (e.recomputeReserve.loadPlanLevels).setSys .standby
      = (({ e with sys := .starting } : Ev).recomputeReserve.loadPlanLevels).setSys .standby :=
    (if_neg fun heq => h heq.symm).trans (if_neg nofun).symm
  simp only [Ev.goLive, hsys]

end

/-- Settles O42: the refusals, the write, and the completions; in UNCONFIGURED the verified one is the end of start-up,
for which `Ev.goLive_standby` says what an idle engine makes of it. -/
theorem storeWritesTheImage : Obligations.StoreWritesTheImage := by
  intro s tag
  refine ⟨fun hready hsys => ⟨exec_store_locked tag hready hsys, exec_store_busy tag hready hsys,
    exec_store_ok s tag hready hsys⟩, fun hw => ⟨exec_storeVerified_configured s hw, fun hsys => ?_⟩,
    exec_storeNotVerified_writing s, exec_storeCompletion_idle s⟩
  obtain ⟨htables, hstore, hreserve, hrecord⟩ := Ev.goLive_settled s.storeDone
  refine ⟨_, exec_storeVerified_unconfigured s hw hsys, htables, hstore, hreserve, hrecord,
    fun hrun hreqs hkey hgate => ?_⟩
  have hstandby : s.storeDone.sys ≠ .standby := fun h => nomatch h.symm.trans hsys
  have hlive := (Ev.start s.storeDone).goLive_of_starting hstandby
  obtain ⟨g1, g2, g3, g4, g5, g6⟩ :=
    Ev.goLive_standby { Ev.start s.storeDone with sys := .starting } rfl hrun hreqs hkey rfl rfl rfl rfl hgate
  rw [hlive]
  refine ⟨g1, g2, g3, g4, fun l => ?_, g6⟩
  rw [g5]
  cases l <;> rfl

end Sys2Proof.Machine

namespace Sys2Proof.Machine

/-! ### An accepted EDIT_CONFIG (R174) -/

/-- The end of an event leaves an entry's fields and its runtime view as they are. -/
theorem Ev.finish_configRecord (e : Ev) (g : Group) : e.finish.configRecord g = e.configRecord g := by
  cases g <;> rfl

/-- An accepted EDIT_CONFIG answers with the entry as the edit leaves it. -/
theorem exec_editConfig_accepted {s : State} {g : Group} {l : List Byte} {u : Tables} (tag : Byte) (hready : s.ready)
    (hsys : s.sys ≠ .starting) (hcheck : s.editCheck g l = (.ok, u)) {t : State}
    (ht : ((Ev.start s).applyEdit g u).finish = t) :
    exec (.editConfig tag (g.addressBytes ++ l)) s
      = .next (t.replied ⟨0x10, tag, g.addressBytes ++ l⟩ .ok (t.configRecord g)) := by
  subst ht
  rw [Ev.finish_configRecord]
  refine request_dispatched 0x10 tag _ s hready hsys
    (r := ⟨(Ev.start s).applyEdit g u, .ok, ((Ev.start s).applyEdit g u).configRecord g⟩) ?_
  show (Ev.start s).serveEditConfig _ = _
  unfold Ev.serveEditConfig
  rw [editArgs_addressBytes]
  dsimp only
  rw [show (Ev.start s).editCheck g l = (.ok, u) from hcheck]

/-- In UNCONFIGURED an edit writes the tables alone (R17). -/
theorem Ev.applyEdit_unconfigured {s : State} (g : Group) (u : Tables) (h : s.sys = .unconfigured) :
    ((Ev.start s).applyEdit g u).finish = { s with tables := u } :=
  congrArg Ev.finish (if_pos h : (Ev.start s).applyEdit g u = Ev.start { s with tables := u })

/-- In any other state the effects of its group follow, from the tables as written (R174). -/
theorem Ev.applyEdit_configured {s : State} (g : Group) (u : Tables) (h : s.sys ≠ .unconfigured) :
    (Ev.start s).applyEdit g u = ((Ev.start { s with tables := u }).editEffects g s.tables u).settle := if_neg h

/-- Outside STARTING and UNCONFIGURED the blocks work from the working tables (R17). -/
theorem State.cfg_configured {s : State} (h1 : s.sys ≠ .starting) (h2 : s.sys ≠ .unconfigured) : s.cfg = s.tables := by
  unfold State.cfg
  split <;> simp_all

/-- Effects that leave nothing to serve leave their state. -/
theorem Ev.settle_finish_start {e : Ev} {t : State} (h : e = Ev.start t) : e.settle.finish = t := by
  rw [h, Ev.settle_start, Ev.finish_start]

/-! ### A rail's SENSE entry (R24, R43) -/

/-- A rail's record after an edit of its window: the out-of-window count restarts where a field changes (R43). -/
def RailRt.rewindowed (x : RailRt) (old new : RailCfg) : RailRt :=
  if old.lowMV = new.lowMV ∧ old.highMV = new.highMV ∧ old.windowSamples = new.windowSamples then x
  else { x with oow := 0 }

theorem RailRt.rewindowed_pgLevel (x : RailRt) (old new : RailCfg) :
    (x.rewindowed old new).pgLevel = x.pgLevel := by
  unfold RailRt.rewindowed
  split <;> rfl

/-- A used rail's power-good qualifier looks at its pin (R24), right after the rail's record is written. -/
theorem Ev.pgLook_record (s : State) {r : Rail} (x : RailRt) (h : (s.railCfg r).used = true) :
    (Ev.start (s.withRail r x)).pgLook r = Ev.start (s.withRail r { x with
      pgTimer := if Level.ofBool s.pins.pg[r] = x.pgLevel then none
        else some (s.now + 1000 * (s.railCfg r).pgDeglitchMs) }) := by
  refine (if_pos h).trans ?_
  rw [Ev.setRail_start, Ev.setRail_start, State.withRail_withRail, State.withRail_withRail, Ev.start_rails,
    State.withRail_get]
  by_cases hp : Level.ofBool s.pins.pg[r] = x.pgLevel
  · rw [if_pos hp]
    exact if_pos hp
  · rw [if_neg hp]
    exact if_neg hp

/-- A rail's record after an edit of its SENSE entry: a rail put into use looks at its pin, one taken out of use reads
LOW (R24, R43). -/
def State.sensed (s : State) (r : Rail) (old new : RailCfg) : RailRt :=
  let x := s.rails[r].rewindowed old new
  if old.used = new.used then x
  else if new.used = true then
    { x with
      pgTimer := if Level.ofBool s.pins.pg[r] = s.rails[r].pgLevel then none
        else some (s.now + 1000 * new.pgDeglitchMs) }
  else { x with pgTimer := none, pgLevel := .low }

/-- The effects of a SENSE entry are on the rail's record alone. -/
theorem Ev.senseEdited_start (s : State) {r : Rail} (old : RailCfg) {new : RailCfg} (hcfg : s.railCfg r = new) :
    (Ev.start s).senseEdited r old new = Ev.start (s.withRail r (s.sensed r old new)) := by
  let x : RailRt := s.rails[r].rewindowed old new
  have hwindow : (if old.lowMV ≠ new.lowMV ∨ old.highMV ≠ new.highMV ∨ old.windowSamples ≠ new.windowSamples then
      (Ev.start s).setRail r fun x => { x with oow := 0 } else Ev.start s) = Ev.start (s.withRail r x) := by
    simp only [x, RailRt.rewindowed]
    split <;> split
    · tauto
    · rfl
    · rw [State.withRail_self]
    · tauto
  unfold Ev.senseEdited State.sensed
  simp only [hwindow]
  by_cases hused : old.used = new.used
  · rw [if_pos hused, if_pos hused]
  · rw [if_neg hused, if_neg hused]
    by_cases hnew : new.used = true
    · rw [if_pos hnew, if_pos hnew, Ev.pgLook_record s x (by rw [hcfg, hnew])]
      simp only [x, RailRt.rewindowed_pgLevel, hcfg]
    · rw [if_neg hnew, if_neg hnew, Ev.pgStop, Ev.setRail_start, State.withRail_withRail, State.withRail_get]

/-! ### A rail's POLICY entry (R37, R43) -/

/-- The new tier asks nothing of the rail. -/
def State.tierIdle (s : State) (r : Rail) : Prop :=
  ¬ ((s.rails[r].state = .on ∨ s.rails[r].state = .ramping) ∧ s.railShed r = true
    ∨ s.rails[r].state = .shed ∧ s.railShed r = false)

section
variable (s : State) {r : Rail}

/-- A rail whose new tier asks nothing of it. -/
theorem Ev.railTierEdited_stays (h : s.tierIdle r) : (Ev.start s).railTierEdited r = Ev.start s := by
  unfold Ev.railTierEdited
  cases hx : (Ev.start s).rails[r].state with
  | on => exact if_neg fun hshed => h (.inl ⟨.inl hx, hshed⟩)
  | ramping => exact if_neg fun hshed => h (.inl ⟨.inr hx, hshed⟩)
  | shed => exact if_pos (by_contra fun hshed => h (.inr ⟨hx, Bool.eq_false_iff.2 hshed⟩))
  | off | draining | retryWait | faulted => rfl

/-- A running rail under a shed tier drains to SHED (R43). -/
theorem Ev.railTierEdited_drops (hx : s.rails[r].state = .on ∨ s.rails[r].state = .ramping)
    (hshed : s.railShed r = true) : (Ev.start s).railTierEdited r = (Ev.start s).drainStart r .shed := by
  unfold Ev.railTierEdited
  obtain hx | hx := hx <;> simp only [Ev.start_rails, hx] <;> exact if_pos hshed

/-- A SHED rail under no shed tier ramps (R43). -/
theorem Ev.railTierEdited_gives (hx : s.rails[r].state = .shed) (hshed : s.railShed r = false) :
    (Ev.start s).railTierEdited r = (Ev.start s).rampStart r := by
  unfold Ev.railTierEdited
  simp only [Ev.start_rails, hx]
  exact if_neg (Bool.eq_false_iff.1 hshed)

variable {old new : RailCfg}

/-- With the REPORT mode kept or no condition present, a POLICY entry has the effect of its tier alone (R37). -/
theorem Ev.policyEdited_tier
    (h : old.faultMode ≠ .report ∨ new.faultMode = .report ∨ s.faults[srcRail r].condition = false) :
    (Ev.start s).policyEdited r old new
      = if old.tier = new.tier then Ev.start s else (Ev.start s).railTierEdited r := by
  have hmode : (if old.faultMode = .report ∧ new.faultMode ≠ .report then (Ev.start s).conditionEnded (srcRail r)
      else Ev.start s) = Ev.start s := by
    split
    · rename_i hm
      obtain ⟨hold, hnew⟩ := hm
      exact Ev.conditionEnded_absent _ _ ((h.resolve_left (not_not.2 hold)).resolve_left hnew)
    · rfl
  unfold Ev.policyEdited
  simp only [hmode]

/-- The REPORT mode is left under an ACTIVE condition, which ends (R37). -/
theorem Ev.policyEdited_eases (hold : old.faultMode = .report) (hnew : new.faultMode ≠ .report)
    (hf : s.faults[srcRail r].state = .active) (hc : s.faults[srcRail r].firstCause ≠ .none) :
    (Ev.start s).policyEdited r old new = if old.tier = new.tier then Ev.start (s.eased (srcRail r))
      else (Ev.start (s.eased (srcRail r))).railTierEdited r := by
  unfold Ev.policyEdited
  simp only [if_pos (And.intro hold hnew), Ev.conditionEnded_active s _ hf hc]

/-- Neither the mode nor the tier of a POLICY entry has an effect. -/
theorem Ev.policyEdited_none (htier : old.tier = new.tier ∨ s.tierIdle r)
    (h : old.faultMode ≠ .report ∨ new.faultMode = .report ∨ s.faults[srcRail r].condition = false) :
    (Ev.start s).policyEdited r old new = Ev.start s := by
  rw [Ev.policyEdited_tier s h]
  split
  · rfl
  · rename_i hne
    exact Ev.railTierEdited_stays s (htier.resolve_left hne)

/-- The REPORT mode is left under an ACTIVE condition, and the tier has no effect. -/
theorem Ev.policyEdited_easesAlone (htier : old.tier = new.tier ∨ s.tierIdle r) (hold : old.faultMode = .report)
    (hnew : new.faultMode ≠ .report) (hf : s.faults[srcRail r].state = .active)
    (hc : s.faults[srcRail r].firstCause ≠ .none) :
    (Ev.start s).policyEdited r old new = Ev.start (s.eased (srcRail r)) := by
  rw [Ev.policyEdited_eases s hold hnew hf hc]
  split
  · rfl
  · rename_i hne
    exact Ev.railTierEdited_stays (s.eased (srcRail r)) (htier.resolve_left hne)

variable (hne : old.tier ≠ new.tier)
  (h : old.faultMode ≠ .report ∨ new.faultMode = .report ∨ s.faults[srcRail r].condition = false)
include hne h

/-- A running rail moves to a shed tier and drains to SHED, no detector present and its drain going on (R43). -/
theorem Ev.policyEdited_drops (hx : s.rails[r].state = .on ∨ s.rails[r].state = .ramping) (hshed : s.railShed r = true)
    (h1 : s.rails[r].winDetector = false) (h2 : s.rails[r].pgDetector = false)
    (hgo : (s.railCfg r).monitor ≠ .pg ∨ s.rails[r].pgLevel = .high) :
    (Ev.start s).policyEdited r old new = Ev.start (s.withRail r (s.drainingTo r s.rails[r] .shed)) := by
  rw [Ev.policyEdited_tier s h, if_neg hne, Ev.railTierEdited_drops s hx hshed, Ev.drainStart_start s .shed h1 h2 hgo]

/-- A SHED rail moves out of the shed tiers and ramps, not ON at once (R43). -/
theorem Ev.policyEdited_ramps (hx : s.rails[r].state = .shed) (hshed : s.railShed r = false) (hn : s.notMetAtOnce r) :
    (Ev.start s).policyEdited r old new = Ev.start (s.withRail r (s.rampingAt r s.rails[r] 1)) := by
  rw [Ev.policyEdited_tier s h, if_neg hne, Ev.railTierEdited_gives s hx hshed, Ev.rampStart,
    Ev.beginAttempt_ramps s 1 hshed hn]

end

end Sys2Proof.Machine

namespace Sys2Proof.Machine

/-! ### A moved hold (R143, R146) -/

section
variable (u : State) {k j : Fin 4} (a : Hold) (hk : u.membersAside k) (hj : u.membersAside j) (hne : k ≠ j)
  (ha : a ≠ .ride) (hhas : u.tiers[k].holds.has a = true) (hfree : u.tiers[j].holds.has a = false)

/-- The state with a hold taken from tier `k` and placed on tier `j` (R143, R146). -/
def State.heldMoved (k j : Fin 4) : State :=
  (u.held k (u.tiers[k].holds.put a false)).held j (u.tiers[j].holds.put a true)

include hk hj hne ha hhas hfree

/-- A hold moved between tiers whose rail members stay as they are: POWER is queued for both moves at once (R136). -/
theorem Ev.moveHold_told : ∃ b, ((Ev.start u).removeHold a k).placeHold a j
    = { Ev.start (u.heldMoved a k j) with notices := enqueue u.notices .power b, pwDirty := true } := by
  let h1 : HoldSet := u.tiers[k].holds.put a false
  obtain ⟨b1, hremove⟩ := Ev.removeHold_told (Ev.start u) a hk ha hhas
  let e1 : Ev := (Ev.start u).heldTold k h1 b1
  have hother : e1.tiers[j] = u.tiers[j] := by
    have hval : k.val ≠ j.val := fun hv => hne (Fin.ext hv)
    simp [e1, Ev.heldTold, State.held, Ev.upd, hval]
  obtain ⟨b2, hplace⟩ := Ev.placeHold_told e1 a hj ha (by rw [hother]; exact hfree)
  refine ⟨b2, ?_⟩
  have hqueue : enqueue e1.notices .power b2 = enqueue u.notices .power b2 := enqueue_enqueue _ _ _ _
  calc ((Ev.start u).removeHold a k).placeHold a j
      = e1.placeHold a j := congrArg (Ev.placeHold · a j) hremove
    _ = e1.heldTold j (u.tiers[j].holds.put a true) b2 := by rw [hplace, hother]
    _ = _ := by
      rw [Ev.heldTold, hqueue]
      rfl

/-- To the end of the event: POWER shows both moves (R125). -/
theorem Ev.moveHold_finish :
    (((Ev.start u).removeHold a k).placeHold a j).settle.finish = (u.heldMoved a k j).powerTold := by
  obtain ⟨b, hmove⟩ := Ev.moveHold_told u a hk hj hne ha hhas hfree
  rw [hmove]
  exact Ev.settle_quiet_powerTold _ rfl rfl rfl rfl rfl rfl rfl

end

end Sys2Proof.Machine

namespace Sys2Proof.Machine

/-! ### The THERMAL entry (R146) -/

/-- A HEAT hold that is not placed, or stands on the new tier already, stays. -/
theorem Ev.heatTierEdited_stays (e : Ev) {k : Fin 4} (h : e.thermal.holdTier = none ∨ e.thermal.holdTier = some k) :
    e.heatTierEdited k = e := by
  unfold Ev.heatTierEdited
  obtain h | h := h <;> simp [h]

/-- A HEAT hold placed on another tier moves. -/
theorem Ev.heatTierEdited_moves (s : State) {k j : Fin 4} (h : s.thermal.holdTier = some k) (hne : k ≠ j) :
    (Ev.start s).heatTierEdited j
      = ((Ev.start { s with thermal.holdTier := some j }).removeHold .heat k).placeHold .heat j := by
  unfold Ev.heatTierEdited
  simp only [Ev.start_thermal, h]
  exact if_neg hne

/-! ### The LIMIT entry: the counts (R143) -/

/-- The limit's record after an edit of its counted fields: the counts they govern return to 0 (R143). -/
def LimitRt.recounted (x : LimitRt) (old new : LimitCfg) : LimitRt :=
  let x1 : LimitRt :=
    if old.softCode = new.softCode ∧ old.releaseCode = new.releaseCode ∧ old.samples = new.samples
        ∧ old.countM = new.countM then x
    else { x with softCount := 0, hardCount := 0, releaseCount := 0 }
  if old.hardCode = new.hardCode then x1 else { x1 with hardCount := 0 }

section
variable (x : LimitRt) (old new : LimitCfg)

/-- An edit of the counted fields leaves all of the record but the three counts. -/
theorem LimitRt.recounted_eq : ∃ soft hard release : Nat,
    x.recounted old new = { x with softCount := soft, hardCount := hard, releaseCount := release } := by
  unfold LimitRt.recounted
  dsimp only
  split <;> split <;> exact ⟨_, _, _, rfl⟩

@[simp] theorem LimitRt.recounted_state : (x.recounted old new).state = x.state := by
  obtain ⟨_, _, _, h⟩ := x.recounted_eq old new
  rw [h]

@[simp] theorem LimitRt.recounted_holdTier : (x.recounted old new).holdTier = x.holdTier := by
  obtain ⟨_, _, _, h⟩ := x.recounted_eq old new
  rw [h]

@[simp] theorem LimitRt.recounted_hardPresent : (x.recounted old new).hardPresent = x.hardPresent := by
  obtain ⟨_, _, _, h⟩ := x.recounted_eq old new
  rw [h]

@[simp] theorem LimitRt.recounted_softPresent : (x.recounted old new).softPresent = x.softPresent := by
  obtain ⟨_, _, _, h⟩ := x.recounted_eq old new
  rw [h]

/-- The state with the limit's record so edited. -/
def State.limitRecounted (s : State) : State := { s with limit := s.limit.recounted old new }

@[simp] theorem State.limitRecounted_limit (s : State) :
    (s.limitRecounted old new).limit = s.limit.recounted old new := rfl

theorem Ev.limitEditCounts_start (s : State) :
    (Ev.start s).limitEditCounts old new = Ev.start (s.limitRecounted old new) := by
  unfold Ev.limitEditCounts State.limitRecounted LimitRt.recounted
  by_cases hcounts : old.softCode = new.softCode ∧ old.releaseCode = new.releaseCode ∧ old.samples = new.samples
      ∧ old.countM = new.countM
  · have hnone : ¬ (old.softCode ≠ new.softCode ∨ old.releaseCode ≠ new.releaseCode ∨ old.samples ≠ new.samples
        ∨ old.countM ≠ new.countM) := by tauto
    simp only [if_neg hnone, if_pos hcounts, ne_eq, ite_not]
    split <;> rfl
  · have hsome : old.softCode ≠ new.softCode ∨ old.releaseCode ≠ new.releaseCode ∨ old.samples ≠ new.samples
        ∨ old.countM ≠ new.countM := by tauto
    simp only [if_pos hsome, if_neg hcounts]
    simp only [ne_eq, ite_not]
    split <;> rfl

end

/-! ### The LIMIT entry: the tier (R143) -/

section
variable {new : LimitCfg}

/-- A LIMIT hold that is not placed, or stands on the new tier already, stays. -/
theorem Ev.limitEditTier_stays (e : Ev) (h : e.limit.holdTier = none ∨ e.limit.holdTier = some new.tier) :
    e.limitEditTier new = e := by
  unfold Ev.limitEditTier
  obtain h | h := h <;> simp [h]

/-- A LIMIT hold placed on another tier moves. -/
theorem Ev.limitEditTier_moves (s : State) {k : Fin 4} (h : s.limit.holdTier = some k) (hne : k ≠ new.tier) :
    (Ev.start s).limitEditTier new
      = ((Ev.start { s with limit.holdTier := some new.tier }).removeHold .limit k).placeHold .limit new.tier := by
  unfold Ev.limitEditTier
  simp only [Ev.start_limit, h]
  exact if_neg hne

/-! ### The LIMIT entry: the mode (R143) -/

/-- Outside an episode a mode other than OFF has no effect. -/
theorem Ev.limitEditMode_stays (e : Ev) (hnew : new.mode ≠ .off)
    (h : e.limit.state = .watch ∨ e.limit.state = .latched) : e.limitEditMode new = e := by
  unfold Ev.limitEditMode
  rw [if_neg hnew]
  obtain h | h := h <;> simp only [h]

/-- The limit's record once the mode is OFF, outside an episode. -/
def LimitRt.switchedOff (x : LimitRt) : LimitRt := { x with softCount := 0, hardCount := 0, hardPresent := false }

/-- The mode OFF outside an episode: a hard condition is dropped, which may end the BUS_CURRENT condition. -/
theorem Ev.limitEditMode_switchedOff (s : State) (hnew : new.mode = .off)
    (h : s.limit.state = .watch ∨ s.limit.state = .latched) :
    (Ev.start s).limitEditMode new = if s.limit.hardPresent = true then
      (Ev.start { s with limit := s.limit.switchedOff }).limitEnded
      else Ev.start { s with limit := s.limit.switchedOff } := by
  unfold Ev.limitEditMode
  rw [if_pos hnew]
  split
  case h_1 hs | h_2 hs =>
    obtain h | h := h
    · nomatch h.symm.trans hs
    · nomatch h.symm.trans hs
  all_goals rfl

/-- With no hard condition, or with the soft one standing, the condition is not reported ended (R138). -/
theorem Ev.limitEditMode_off (s : State) (hnew : new.mode = .off)
    (h : s.limit.state = .watch ∨ s.limit.state = .latched)
    (hpresent : s.limit.hardPresent = false ∨ s.limit.softPresent = true) :
    (Ev.start s).limitEditMode new = Ev.start { s with limit := s.limit.switchedOff } := by
  rw [Ev.limitEditMode_switchedOff s hnew h]
  split
  · rename_i hhard
    have hsoft : s.limit.softPresent = true := hpresent.resolve_left (by rw [hhard]; decide)
    exact if_pos (by simp [LimitRt.switchedOff, hsoft])
  · rfl

/-- With the hard condition alone present it ends (R138). -/
theorem Ev.limitEditMode_offEnds (s : State) (hnew : new.mode = .off)
    (h : s.limit.state = .watch ∨ s.limit.state = .latched) (hhard : s.limit.hardPresent = true)
    (hsoft : s.limit.softPresent = false) (hf : s.faults[srcBusCurrent].state = .active)
    (hc : s.faults[srcBusCurrent].firstCause ≠ .none) :
    (Ev.start s).limitEditMode new
      = Ev.start (({ s with limit := s.limit.switchedOff } : State).eased srcBusCurrent) := by
  rw [Ev.limitEditMode_switchedOff s hnew h, if_pos hhard]
  exact (Ev.limitEnded_absent _ hsoft rfl).trans (Ev.conditionEnded_active _ srcBusCurrent hf hc)

/-- The limit's record once an edit of the mode has ended its episode (R140, R143). -/
def LimitRt.closedBy (x : LimitRt) (m : LimitMode) : LimitRt :=
  { x.closed with hardCount := if m = .off then 0 else x.hardCount }

/-- The event with the limit's record replaced. -/
def Ev.withLimit (e : Ev) (x : LimitRt) : Ev := { e with limit := x }

/-- The event with the condition of a source's ACTIVE record ended (R149, R151). -/
def Ev.easedAt (e : Ev) (src : Fin 15) : Ev := e.upd (e.toState.eased src) e.ans

/-- The condition of an ACTIVE record ends within an event that may have queued notices before. -/
theorem Ev.conditionEnded_eases (e : Ev) (src : Fin 15) (hf : e.faults[src].state = .active)
    (hc : e.faults[src].firstCause ≠ .none) : e.conditionEnded src = e.easedAt src := by
  obtain ⟨-, hcond⟩ := e.faults[src].state_active_iff.1 hf
  have hset : (e.setFault src fun f => { f with condition := false }).faults[src]
      = { e.faults[src] with condition := false } := by simp
  unfold Ev.conditionEnded
  rw [if_pos hcond]
  dsimp only
  rw [hset, FaultRec.state_eased _ hf hc, hf, if_neg (by decide), Ev.faultNotice, hset]
  rfl

/-- A changed mode ends the episode in hand, whatever `d` its end leaves once the hold is given back (R140, R143). -/
theorem Ev.limitEditMode_ends {s : State} {d : Ev} (h : s.limit.state = .noted ∨ s.limit.state = .limiting)
    (hd : (Ev.start s).dropLimitHold = d) (hlimit : d.limit = { s.limit with holdTier := none })
    (hfaults : d.faults = s.faults) (hhard : s.limit.hardPresent = false)
    (hf : s.faults[srcBusCurrent].state = .active) (hc : s.faults[srcBusCurrent].firstCause ≠ .none) :
    (Ev.start s).limitEditMode new = (d.withLimit (s.limit.closedBy new.mode)).easedAt srcBusCurrent := by
  let x : Ev := d.withLimit s.limit.closed
  have hend : (Ev.start s).endEpisode = x.easedAt srcBusCurrent := by
    have hx : (Ev.start s).endEpisode = x.limitEnded := by
      rw [Ev.endEpisode, hd]
      simp only [hlimit]
      rfl
    have hxfaults : x.faults = s.faults := hfaults
    rw [hx, Ev.limitEnded_absent x rfl hhard]
    exact Ev.conditionEnded_eases x srcBusCurrent (by rwa [hxfaults]) (by rwa [hxfaults])
  have hmode : (Ev.start s).limitEditMode new = if new.mode = .off then
      { (Ev.start s).endEpisode with limit.softCount := 0, limit.hardCount := 0, limit.hardPresent := false }
      else (Ev.start s).endEpisode := by
    have hx : (Ev.start s).endEpisode.limit.hardPresent = false := by
      rw [hend]
      exact hhard
    unfold Ev.limitEditMode
    obtain h | h := h <;> simp only [Ev.start_limit, h, hx, Bool.false_eq_true, if_false]
  rw [hmode, hend, LimitRt.closedBy]
  split
  · rw [← hhard]
    rfl
  · rfl

end

end Sys2Proof.Machine

namespace Sys2Proof.Machine

/-! ### The LIMIT entry, assembled (R143) -/

/-- An event that queued POWER and then ended a condition shows POWER with what it leaves, before FAULT (R125, R151). -/
theorem Ev.settle_powerThenEased {e : Ev} (src : Fin 15) {q : List Notice} {b : NoticeBody} (hq : e.Quiet)
    (h : e.notices = enqueue q .power b) (h1 : e.stDirty = false) (h2 : e.pwDirty = true) :
    (e.easedAt src).settle.finish = ({ e.toState with notices := q } : State).powerTold.eased src := by
  have hqueue (body c : NoticeBody) : retake .power body (enqueue e.notices (.fault src) c)
      = enqueue (enqueue q .power body) (.fault src) c := by
    rw [h, retake_enqueue_ne (show NoticeKey.power ≠ .fault src from nofun), retake_enqueue]
  rw [Ev.settle_quiet (e.easedAt src) hq.ans hq.tgtChanged hq.arb hq.act, Ev.finish_pwDirty (e.easedAt src) h1 h2]
  simp only [State.powerTold, State.eased, ← hqueue]
  rfl

/-- The tiers' records and the limit's are apart. -/
theorem State.held_withLimit (s : State) (k : Fin 4) (h : HoldSet) (x : LimitRt) :
    ({ s with limit := x } : State).held k h = { s.held k h with limit := x } := rfl

/-- A hold set replaced and the limit's record behind it, but for the POWER queued. -/
theorem Ev.heldTold_withLimit (s : State) (k : Fin 4) (h : HoldSet) (b : NoticeBody) (x : LimitRt) :
    ({ (((Ev.start s).heldTold k h b).withLimit x).toState with notices := s.notices } : State)
      = { s.held k h with limit := x } := rfl

section
variable (s : State) {old new : LimitCfg} {k : Fin 4}

/-- The effects of a LIMIT entry: the counts, then whatever `e` the tier's change leaves, then the mode (log 28). -/
theorem Ev.limitEdited_eq {e : Ev}
    (htier : (if old.tier ≠ new.tier then (Ev.start (s.limitRecounted old new)).limitEditTier new
      else Ev.start (s.limitRecounted old new)) = e) :
    (Ev.start s).limitEdited old new = if old.mode ≠ new.mode then e.limitEditMode new else e := by
  subst htier
  simp only [Ev.limitEdited, Ev.limitEditCounts_start]

/-- A mode that stands, or that is not OFF outside an episode, adds nothing to what the tier's change leaves. -/
theorem Ev.limitEdited_modeStays {e : Ev}
    (htier : (if old.tier ≠ new.tier then (Ev.start (s.limitRecounted old new)).limitEditTier new
      else Ev.start (s.limitRecounted old new)) = e)
    (hmode : old.mode = new.mode ∨ new.mode ≠ .off ∧ (e.limit.state = .watch ∨ e.limit.state = .latched)) :
    (Ev.start s).limitEdited old new = e := by
  rw [Ev.limitEdited_eq s htier]
  obtain h | ⟨hnew, h⟩ := hmode
  · exact if_neg (not_not.2 h)
  · split
    · exact Ev.limitEditMode_stays e hnew h
    · rfl

/-- A tier that stands, or that has no hold to move, leaves the counts' event as it is. -/
theorem Ev.limitEdited_tierStays
    (h : old.tier = new.tier ∨ s.limit.holdTier = none ∨ s.limit.holdTier = some new.tier) :
    (if old.tier ≠ new.tier then (Ev.start (s.limitRecounted old new)).limitEditTier new
      else Ev.start (s.limitRecounted old new)) = Ev.start (s.limitRecounted old new) := by
  split
  · rename_i hne
    refine Ev.limitEditTier_stays _ ?_
    simpa using h.resolve_left hne
  · rfl

/-- Counts alone. -/
theorem Ev.limitEdited_counts
    (hmode : old.mode = new.mode ∨ new.mode ≠ .off ∧ (s.limit.state = .watch ∨ s.limit.state = .latched))
    (htier : old.tier = new.tier ∨ s.limit.holdTier = none ∨ s.limit.holdTier = some new.tier) :
    ((Ev.start s).limitEdited old new).settle.finish = s.limitRecounted old new :=
  Ev.settle_finish_start (Ev.limitEdited_modeStays s (Ev.limitEdited_tierStays s htier)
    (by simpa using hmode))

/-- Counts, and a hold that moves to the new tier. -/
theorem Ev.limitEdited_moves
    (hmode : old.mode = new.mode ∨ new.mode ≠ .off ∧ (s.limit.state = .watch ∨ s.limit.state = .latched))
    (hold : s.limit.holdTier = some k) (hne : k ≠ new.tier) (htier : old.tier ≠ new.tier)
    (hhas : s.tiers[k].holds.limit = true) (hfree : s.tiers[new.tier].holds.limit = false) (hk : s.membersAside k)
    (hj : s.membersAside new.tier) :
    ((Ev.start s).limitEdited old new).settle.finish
      = ({ (s.held k { s.tiers[k].holds with limit := false }).held new.tier
            { s.tiers[new.tier].holds with limit := true } with
          limit := { s.limit.recounted old new with holdTier := some new.tier } } : State).powerTold := by
  let v : State := { s with limit := { s.limit.recounted old new with holdTier := some new.tier } }
  obtain ⟨b, hmove⟩ := Ev.moveHold_told v .limit (k := k) (j := new.tier) hk hj hne (by decide) hhas hfree
  have hstage : (if old.tier ≠ new.tier then (Ev.start (s.limitRecounted old new)).limitEditTier new
      else Ev.start (s.limitRecounted old new)) = ((Ev.start v).removeHold .limit k).placeHold .limit new.tier :=
    (if_pos htier).trans (Ev.limitEditTier_moves _ (by simpa using hold) hne)
  rw [Ev.limitEdited_modeStays s hstage]
  · rw [Ev.moveHold_finish v .limit hk hj hne (by decide) hhas hfree, State.heldMoved, State.held_withLimit,
      State.held_withLimit]
    rfl
  · rw [hmove]
    simpa [State.heldMoved, State.held, v] using hmode

variable (hmode : old.mode ≠ new.mode)
include hmode

/-- The mode OFF outside an episode. -/
theorem Ev.limitEdited_off (hnew : new.mode = .off) (htier : old.tier = new.tier ∨ s.limit.holdTier = none)
    (h : s.limit.state = .watch ∨ s.limit.state = .latched)
    (hpresent : s.limit.hardPresent = false ∨ s.limit.softPresent = true) :
    ((Ev.start s).limitEdited old new).settle.finish
      = { s with limit := (s.limit.recounted old new).switchedOff } := by
  refine Ev.settle_finish_start ?_
  rw [Ev.limitEdited_eq s (Ev.limitEdited_tierStays s (htier.imp_right .inl)), if_pos hmode]
  exact Ev.limitEditMode_off _ hnew (by simpa using h)
    (by simpa using hpresent)

/-- The mode OFF outside an episode, under the hard condition alone. -/
theorem Ev.limitEdited_offEnds (hnew : new.mode = .off) (htier : old.tier = new.tier ∨ s.limit.holdTier = none)
    (h : s.limit.state = .watch ∨ s.limit.state = .latched) (hhard : s.limit.hardPresent = true)
    (hsoft : s.limit.softPresent = false) (hf : s.faults[srcBusCurrent].state = .active)
    (hc : s.faults[srcBusCurrent].firstCause ≠ .none) :
    ((Ev.start s).limitEdited old new).settle.finish
      = ({ s with limit := (s.limit.recounted old new).switchedOff } : State).eased srcBusCurrent := by
  refine Ev.settle_finish_start ?_
  rw [Ev.limitEdited_eq s (Ev.limitEdited_tierStays s (htier.imp_right .inl)), if_pos hmode]
  exact Ev.limitEditMode_offEnds _ hnew (by simpa using h)
    (by simpa using hhard) (by simpa using hsoft) hf hc

variable (htier : old.tier = new.tier) (hf : s.faults[srcBusCurrent].state = .active)
  (hc : s.faults[srcBusCurrent].firstCause ≠ .none) (hhard : s.limit.hardPresent = false)
include htier hf hc hhard

/-- An episode in NOTED is ended by a changed mode. -/
theorem Ev.limitEdited_endsNoted (h : s.limit.state = .noted) (hold : s.limit.holdTier = none) :
    ((Ev.start s).limitEdited old new).settle.finish
      = ({ s with limit := (s.limit.recounted old new).closedBy new.mode } : State).eased srcBusCurrent := by
  have hnone : (s.limitRecounted old new).limit.holdTier = none := by simpa using hold
  have hdrop : (Ev.start (s.limitRecounted old new)).dropLimitHold = Ev.start (s.limitRecounted old new) := by
    simp only [Ev.dropLimitHold, Ev.start_limit, hnone]
  refine Ev.settle_finish_start ?_
  rw [Ev.limitEdited_eq s (Ev.limitEdited_tierStays s (.inl htier)), if_pos hmode]
  exact Ev.limitEditMode_ends (.inl (by simpa using h)) hdrop (by rw [← hnone]; rfl) rfl
    (by simpa using hhard) hf hc

/-- An episode in LIMITING is ended by a changed mode, its hold given back with POWER before FAULT. -/
theorem Ev.limitEdited_endsLimiting (h : s.limit.state = .limiting) (hold : s.limit.holdTier = some k)
    (hhas : s.tiers[k].holds.limit = true) (hk : s.membersAside k) :
    ((Ev.start s).limitEdited old new).settle.finish
      = ({ s.held k { s.tiers[k].holds with limit := false } with
          limit := (s.limit.recounted old new).closedBy new.mode } : State).powerTold.eased srcBusCurrent := by
  let v : State := { s with limit := { s.limit.recounted old new with holdTier := none } }
  obtain ⟨b, hremove⟩ := Ev.removeHold_told (Ev.start v) .limit (k := k) hk (by decide) hhas
  let d : Ev := (Ev.start v).heldTold k { s.tiers[k].holds with limit := false } b
  have hsome : (s.limitRecounted old new).limit.holdTier = some k := by simpa using hold
  have hdrop : (Ev.start (s.limitRecounted old new)).dropLimitHold = d := by
    simp only [Ev.dropLimitHold, Ev.start_limit, hsome]
    exact hremove
  have hedit : (Ev.start s).limitEdited old new
      = (d.withLimit ((s.limit.recounted old new).closedBy new.mode)).easedAt srcBusCurrent := by
    rw [Ev.limitEdited_eq s (Ev.limitEdited_tierStays s (.inl htier)), if_pos hmode]
    exact Ev.limitEditMode_ends (.inr (by simpa using h)) hdrop rfl rfl (by simpa using hhard) hf hc
  have hq : (d.withLimit ((s.limit.recounted old new).closedBy new.mode)).Quiet := ⟨rfl, rfl, rfl, rfl⟩
  rw [hedit, Ev.settle_powerThenEased srcBusCurrent (q := s.notices) hq rfl rfl rfl,
    Ev.heldTold_withLimit v, State.held_withLimit]

end

end Sys2Proof.Machine

namespace Sys2Proof.Machine

/-! ### The effects of an accepted EDIT_CONFIG, assembled (R174) -/

/-- The groups that are read where they are used: their edit has no effect of its own (R174). -/
def Group.readInPlace : Group → Bool
  | .tier _ | .line _ | .wake _ | .ride | .lock | .system => true
  | .header p | .step p _ => !p.isSnap
  | .sense _ | .timing _ | .policy _ | .budget | .limit | .thermal => false

section
variable (s : State) {g : Group} (old new : Tables)

theorem Ev.editEffects_none (h : g.readInPlace = true) : (Ev.start s).editEffects g old new = Ev.start s := by
  cases g with
  | tier | line | wake | ride | lock | system => rfl
  | header p | step p => exact if_neg (by simpa [Group.readInPlace] using h)
  | sense | timing | policy | budget | limit | thermal => exact absurd h nofun

/-- The THERMAL entry's tier stands, or has no hold to move. -/
theorem Ev.editEffects_thermalStays
    (h : old.thermal.tier = new.thermal.tier ∨ s.thermal.holdTier = none
      ∨ s.thermal.holdTier = some new.thermal.tier) :
    (Ev.start s).editEffects .thermal old new = Ev.start s := by
  simp only [Ev.editEffects]
  split
  · rfl
  · rename_i hne
    exact Ev.heatTierEdited_stays _ (h.resolve_left hne)

/-- The THERMAL entry moves a placed HEAT hold to its new tier (R146). -/
theorem Ev.editEffects_thermalMoves {k : Fin 4} (hold : s.thermal.holdTier = some k) (hne : k ≠ new.thermal.tier)
    (htier : old.thermal.tier ≠ new.thermal.tier) (hhas : s.tiers[k].holds.heat = true)
    (hfree : s.tiers[new.thermal.tier].holds.heat = false) (hk : s.membersAside k)
    (hj : s.membersAside new.thermal.tier) :
    ((Ev.start s).editEffects .thermal old new).settle.finish
      = ({ (s.held k { s.tiers[k].holds with heat := false }).held new.thermal.tier
            { s.tiers[new.thermal.tier].holds with heat := true } with
          thermal.holdTier := some new.thermal.tier } : State).powerTold := by
  let v : State := { s with thermal.holdTier := some new.thermal.tier }
  have hmoves : (Ev.start s).editEffects .thermal old new
      = ((Ev.start v).removeHold .heat k).placeHold .heat new.thermal.tier :=
    (if_neg htier).trans (Ev.heatTierEdited_moves s hold hne)
  rw [hmoves, Ev.moveHold_finish v .heat hk hj hne (by decide) hhas hfree]
  rfl

end

/-- Settles O40: the effects of each group to the end of the event, from the state with the tables written; the reply
tells the entry as they leave it. -/
theorem editIsAccepted : Obligations.EditIsAccepted := by
  intro s tag g l u hready hsys hedit hride hwriting hplan hhard body s1 s2 leaves
  have hcheck := State.editCheck_accepted hedit hride hwriting hplan hhard
  have hleaves {t : State} (h : ((Ev.start s).applyEdit g u).finish = t) : leaves t :=
    exec_editConfig_accepted tag hready hsys hcheck h
  refine ⟨fun h => hleaves (Ev.applyEdit_unconfigured g u h), fun hconf => ?_⟩
  have heffects {t : State} (h : ((Ev.start s1).editEffects g s.tables u).settle.finish = t) : leaves t :=
    hleaves (by rw [Ev.applyEdit_configured g u hconf, h])
  have hstart {t : State} (h : (Ev.start s1).editEffects g s.tables u = Ev.start t) : leaves t :=
    heffects (Ev.settle_finish_start h)
  have hcfg : s1.cfg = u := State.cfg_configured (s := s1) hsys hconf
  refine ⟨fun hg => ?_, fun hg => ?_, fun r hg => ?_, fun r hg => ?_, fun hg => ?_, fun hg => ?_⟩
  · refine hstart (Ev.editEffects_none s1 _ _ ?_)
    obtain ⟨_, rfl⟩ | ⟨_, rfl⟩ | ⟨_, rfl⟩ | rfl | rfl | rfl | ⟨p, hp, rfl | ⟨_, rfl⟩⟩ := hg
    exacts [rfl, rfl, rfl, rfl, rfl, rfl, congrArg (!·) hp, congrArg (!·) hp]
  · refine hstart ((Ev.editEffects_recomputes _ _ _ ?_).trans rfl)
    obtain rfl | ⟨_, rfl⟩ | ⟨p, hp, rfl | ⟨_, rfl⟩⟩ := hg
    exacts [rfl, rfl, hp, hp]
  · subst hg
    exact hstart (Ev.senseEdited_start s1 _ (by rw [State.railCfg, hcfg]))
  · subst hg
    intro old new x f dropped given
    refine ⟨fun htier => ⟨fun h => ?_, fun hold hnew hf hc => ?_⟩,
      fun hne h => ⟨fun hd h1 h2 hgo => ?_, fun hd hn => ?_⟩⟩
    · exact hstart (Ev.policyEdited_none s1 htier h)
    · exact hstart (Ev.policyEdited_easesAlone s1 htier hold hnew hf hc)
    · obtain ⟨hx, hshed⟩ := hd
      refine hstart (Ev.policyEdited_drops s1 hne h hx hshed h1 h2 ?_)
      rwa [State.railCfg, hcfg]
    · obtain ⟨hx, hshed⟩ := hd
      exact hstart (Ev.policyEdited_ramps s1 hne h hx hshed hn)
  · subst hg
    intro old new x f x1 x2
    refine ⟨fun hmode => ⟨fun htier => ?_, fun k hold hne htier hhas hfree hk hj => ?_⟩,
      fun hmode htier hf hc hhard => ⟨fun h hold => ?_, fun k h hold hhas hk => ?_⟩,
      fun hmode hnew htier h => ⟨fun hpresent => ?_, fun hhard hsoft hf hc => ?_⟩⟩
    · exact heffects (Ev.limitEdited_counts s1 hmode htier)
    · exact heffects (Ev.limitEdited_moves s1 hmode hold hne htier hhas hfree hk hj)
    · exact heffects (Ev.limitEdited_endsNoted s1 hmode htier hf hc hhard h hold)
    · exact heffects (Ev.limitEdited_endsLimiting s1 hmode htier hf hc hhard h hold hhas hk)
    · exact heffects (Ev.limitEdited_off s1 hmode hnew htier h hpresent)
    · exact heffects (Ev.limitEdited_offEnds s1 hmode hnew htier h hhard hsoft hf hc)
  · subst hg
    exact ⟨fun h => hstart (Ev.editEffects_thermalStays s1 _ _ h), fun k hold hne htier hhas hfree hk hj =>
      heffects (Ev.editEffects_thermalMoves s1 _ _ hold hne htier hhas hfree hk hj)⟩

end Sys2Proof.Machine

namespace Sys2Proof.Machine

/-! ### The machine as a whole -/

/-- A step takes the command at the front of the queue. -/
theorem step_cons {c : Instr} {rest : List Instr} {s : State} (h : s.pending = c :: rest) :
    step s = exec c { s with pending := rest } := by
  unfold step
  rw [h]

/-- On an empty queue the model's clock ticks (log 2). -/
theorem step_nil {s : State} (h : s.pending = []) : step s = .next s.tick := by
  unfold step
  rw [h]

/-- Settles O1: the two forms the queue can have. -/
theorem stepTakesTheFrontCommand : Obligations.StepTakesTheFrontCommand :=
  ⟨fun _ _ _ h => step_cons h, fun _ h => step_nil h⟩

/-- Settles O2: a part reset carries the queue and the clock over (`exec_reset`), every other command leaves them
(`exec_keepMost`). -/
theorem everyCommandAnswersNext : Obligations.EveryCommandAnswersNext := by
  intro c s
  by_cases hc : c.isReset
  · obtain ⟨inReset, checking, d, sc, hexec⟩ := exec_reset c s hc
    exact ⟨_, hexec, rfl, rfl⟩
  · obtain ⟨t, ht, hkeep, -⟩ := exec_keepMost c hc s
    exact ⟨t, ht, hkeep.pending, hkeep.now⟩

end Sys2Proof.Machine
